-- ==== Sys2Proof/Word.lean ====
section
/-! DEFINITION. The 32-bit word of the host bus, the registers and the command encoding (20_memory.md R70, 30_encoding.md R90). -/

namespace Sys2Proof

/-- A 32-bit bus word, register value or command word, bit 0 least significant (00_scope.md R10). -/
abbrev Word := BitVec 32

end Sys2Proof
end

