-- ==== Sys2Proof/Syntax.lean ====
section
/-! DEFINITION. The commands of TRB-1: one constructor per row of spec/opcode_table.json (30_encoding.md R93). -/

namespace Sys2Proof

/-- A legal command.  The operands are the natural numbers R92's zero extension gives. -/
inductive Instr where
  /-- `DECODE`, format F0 (40_sprite_sheet_decoder.md R102). -/
  | decode
  /-- `BUILD_PAL lvl`, format FL: `lvl` is the 4-bit levels-per-channel count (41_palette_lookup_engine.md R112). -/
  | buildPal (lvl : Nat)
  /-- `RENDER`, format F0 (43_tilemap_rasterizer.md R140). -/
  | render
  /-- `EXPAND`, format F0 (41_palette_lookup_engine.md R113). -/
  | expand
  /-- `LOOKUP idx`, format FI: `idx` is the 9-bit palette index (41_palette_lookup_engine.md R114). -/
  | lookup (idx : Nat)
  deriving DecidableEq, Repr

end Sys2Proof
end

