-- ==== Sys2Proof/WellFormed.lean ====
section
/-! DEFINITION. Which commands have an encoding: the operand ranges of 30_encoding.md R92 and R96. -/

namespace Sys2Proof

/-- An operand lies in the range its field can hold (R92).  Outside it a command is "a syntax error, not an
encoding" (R96).  It says nothing about legality at run time: `BUILD_PAL 0` is well formed and ends in PAL_LEVELS. -/
def Instr.wellFormed : Instr → Bool
  | .decode => true
  | .buildPal lvl => decide (lvl < 16)
  | .render => true
  | .expand => true
  | .lookup idx => decide (idx < 512)

end Sys2Proof
end

