-- ==== Sys2Proof/Decode.lean ====
section
/-! DEFINITION. The command word: decoder, encoder, opcode table and disassembler (30_encoding.md R90-R97). -/

namespace Sys2Proof

/-- Why a word is illegal (R94). -/
inductive DecodeError where
  /-- OP is 0x00 or 0x06-0xFF. -/
  | unknownOp
  /-- OP is 0x01-0x05 and a must-be-0 bit is set. -/
  | mustBeZero
  deriving DecidableEq, Repr

/-- One row of R93's opcode map. -/
structure OpRow where
  op : BitVec 8
  mask : Word
  value : Word
  deriving DecidableEq, Repr

/-- R93, DECODE (F0). -/
def rowDecode : OpRow := { op := 0x01, value := 0x00000001, mask := 0xFFFFFFFF }
/-- R93, BUILD_PAL (FL). -/
def rowBuildPal : OpRow := { op := 0x02, value := 0x00000002, mask := 0xFFFFF0FF }
/-- R93, RENDER (F0). -/
def rowRender : OpRow := { op := 0x03, value := 0x00000003, mask := 0xFFFFFFFF }
/-- R93, EXPAND (F0). -/
def rowExpand : OpRow := { op := 0x04, value := 0x00000004, mask := 0xFFFFFFFF }
/-- R93, LOOKUP (FI). -/
def rowLookup : OpRow := { op := 0x05, value := 0x00000005, mask := 0xFE00FFFF }

/-- R93's opcode map. -/
def opcodeTable : List OpRow := [rowDecode, rowBuildPal, rowRender, rowExpand, rowLookup]

/-- `(w & mask) = match` (R93). -/
def OpRow.accepts (r : OpRow) (w : Word) : Bool := w &&& r.mask == r.value

/-- `OP = w[7:0]` (R91). -/
def opField (w : Word) : BitVec 8 := w.extractLsb' 0 8

/-- `LVL = zext(w[11:8])` (R92). -/
def lvlField (w : Word) : Nat := (w.extractLsb' 8 4).toNat

/-- `IDX = zext(w[24:16])` (R92). -/
def idxField (w : Word) : Nat := (w.extractLsb' 16 9).toNat

/-- R94: the two ways a word is illegal. -/
def illegalReason (w : Word) : DecodeError :=
  if opcodeTable.any (fun r => r.op == opField w) then .mustBeZero else .unknownOp

/-- Decode of an accepted word (R93), total: every word that is not legal is rejected by name (R94, R95). -/
def decode (w : Word) : Except DecodeError Instr :=
  if rowDecode.accepts w then .ok .decode
  else if rowBuildPal.accepts w then .ok (.buildPal (lvlField w))
  else if rowRender.accepts w then .ok .render
  else if rowExpand.accepts w then .ok .expand
  else if rowLookup.accepts w then .ok (.lookup (idxField w))
  else .error (illegalReason w)

/-- The word of a command (R91, R92, R96): the match word with the operand placed in its field. -/
def encode : Instr → Word
  | .decode => rowDecode.value
  | .buildPal lvl => rowBuildPal.value ||| (BitVec.ofNat 32 lvl <<< 8)
  | .render => rowRender.value
  | .expand => rowExpand.value
  | .lookup idx => rowLookup.value ||| (BitVec.ofNat 32 idx <<< 16)

/-- The mnemonic of R93. -/
def mnemonicOf : Instr → String
  | .decode => "DECODE"
  | .buildPal _ => "BUILD_PAL"
  | .render => "RENDER"
  | .expand => "EXPAND"
  | .lookup _ => "LOOKUP"

/-- A disassembled word (R97): a command, or `.word`. -/
inductive AsmLine where
  | command (i : Instr)
  | word (w : Word)
  deriving DecidableEq, Repr

/-- R97: a legal word as its command, every illegal word as `.word`. -/
def disassemble (w : Word) : AsmLine :=
  match decode w with
  | .ok i => .command i
  | .error _ => .word w

/-- The word an assembler emits for a disassembled line (R96, R97). -/
def assemble : AsmLine → Word
  | .command i => encode i
  | .word w => w

/-- One hexadecimal digit, capital letters (`%08X`, R97). -/
def hexDigit (n : Nat) : String :=
  match n with
  | 10 => "A" | 11 => "B" | 12 => "C" | 13 => "D" | 14 => "E" | 15 => "F"
  | n => toString n

/-- The low `k` hexadecimal digits of `n`, most significant first. -/
def hexDigits : Nat → Nat → String
  | 0, _ => ""
  | k + 1, n => hexDigits k (n / 16) ++ hexDigit (n % 16)

/-- The text a disassembler prints (R97): operands in decimal, illegal words as `.word 0x%08X`. -/
def AsmLine.print : AsmLine → String
  | .command (.buildPal lvl) => "BUILD_PAL " ++ toString lvl
  | .command (.lookup idx) => "LOOKUP " ++ toString idx
  | .command i => mnemonicOf i
  | .word w => ".word 0x" ++ hexDigits 8 w.toNat

/-- The instruction read from a table row's word: the low `nbits` bits of `w`, every bit above them 0.  A command
is one 32-bit word (R90), so its word is the number itself. -/
def tableWord (nbits w : Nat) : Word := BitVec.ofNat 32 (w % 2 ^ nbits)

/-- What the decoder reads from an instruction whose bits are `w` (bit 0 least significant), none where it refuses. -/
def decodeTableWord (nbits w : Nat) : Option Instr :=
  match decode (tableWord nbits w) with
  | .ok i => some i
  | .error _ => none

end Sys2Proof
end

