-- ==== Sys2Proof/Config.lean ====
section
/-! DEFINITION. The elaboration parameters (00_scope.md R6) and the free value of the spec (10_state.md R47).
What is computed from the parameters stands in Machine/Params.lean. -/

namespace Sys2Proof

/-- The parameters the block is elaborated with (R6).  The others of R6's table (CW, PAL_DEPTH, L_MAX, SENT, MAP_WIDTH)
are derived from these.  CMD_LATENCY is no number here: it is the scheduling of the completion step (R200, P3). -/
structure Config where
  /-- FIELD_W: width in bits of one sub-colour field and of one palette index, 8 or 9. -/
  fieldW : Nat
  /-- N_SUB: number of sub-colour fields in a tile colour word, 4 or 8. -/
  nSub : Nat
  /-- Q_RESET: reset value of QDIV, 1..511. -/
  qReset : Nat
  /-- MAP_LOG2: log2 of MAP_WIDTH, 1..8. -/
  mapLog2 : Nat
  /-- FB_W: pixel buffer width. -/
  fbW : Nat
  /-- FB_H: pixel buffer height. -/
  fbH : Nat
  /-- RAW_CAP: elements of the RAW and IDX memories. -/
  rawCap : Nat
  /-- BASE: bus address of the block, a multiple of 0x800000. -/
  base : Nat
  deriving DecidableEq, Repr

/-- Profile P216 (R6, D4) with the OPEN parameters of 95_test_vectors.md's common set-up: MAP_LOG2 = 6,
FB_W = FB_H = 8, RAW_CAP = 4096, and BASE 0.  DESIGN CHOICE (notes/assumptions/1.md): unsafe for a claim about this
one elaboration, safe for a claim about every `Config`. -/
def Config.p216 : Config :=
  { fieldW := 8, nSub := 4, qReset := 64, mapLog2 := 6, fbW := 8, fbH := 8, rawCap := 4096, base := 0 }

/-- Profile P512 (R6, D4), with the same OPEN parameters as `Config.p216`. -/
def Config.p512 : Config :=
  { fieldW := 9, nSub := 8, qReset := 32, mapLog2 := 6, fbW := 8, fbH := 8, rawCap := 4096, base := 0 }

/-- The free value: the n-th draw since power-up (R47, U1).  It has no body, so no proof can know any bit of it.  A
narrower element's draw is its low bits.  notes/assumptions/7.md. -/
opaque Config.draw : Nat → Word

end Sys2Proof
end

