-- ==== Sys2Proof/Machine/State.lean ====
section
/-! DEFINITION. The state of the block as plain data (10_state.md), its reasons to stop, and the state after reset
(10_state.md R53, 70_reset_and_hazards.md R190). -/

namespace Sys2Proof.Machine

/-- One on-chip memory: the elements written since reset, as (element index, value) pairs with strictly rising indices.
An index that is not listed is an element whose written mark is clear (10_state.md R47): it has no value and reads as a
draw.  An element "is not a byte" (00_scope.md R12) and no storage is byte-addressable (20_memory.md R77), so the unit is the
element.  notes/assumptions/6.md. -/
abbrev Memory (w : Nat) := List (Nat × BitVec w)

/-- `ENG` (10_state.md R21, R50). -/
inductive Eng where
  | idle
  | busy
  deriving DecidableEq, Repr

/-- The latch set L, taken when a command is accepted (10_state.md R48). -/
structure Latch where
  /-- L.CMDW, the accepted command word. -/
  cmdw : Word
  /-- L.XS, `sext_32(XSCROLL)`. -/
  xs : Int
  /-- L.YS, `sext_32(YSCROLL)`. -/
  ys : Int
  /-- L.TRANSP, CTRL.TRANSP_EN. -/
  transp : Bool
  /-- L.Q, `QDIV[8:0]`. -/
  q : BitVec 9
  /-- L.SDIM, SHEET_DIM. -/
  sdim : Word
  deriving DecidableEq, Repr

/-- CTRL's fields (10_state.md R28); its reserved bits have no storage (R23). -/
structure Ctrl where
  transpEn : Bool
  irqEn : Bool
  deriving DecidableEq, Repr

/-- STATUS's stored fields (10_state.md R29).  BUSY is `eng` (R50), and reserved bits have no storage (R23). -/
structure Status where
  done : Bool
  err : Bool
  errcode : BitVec 4
  sheetValid : Bool
  palValid : Bool
  deriving DecidableEq, Repr

/-- One HOST transaction as the port's inputs show it (20_memory.md R70). -/
structure BusAccess where
  /-- `we`: true for a write. -/
  we : Bool
  /-- `addr[22:0]`, the byte offset within the block. -/
  addr : BitVec 23
  /-- `size[1:0]`: 2 is 32 bits, every other value a narrower access. -/
  size : BitVec 2
  /-- `wdata[31:0]`. -/
  wdata : Word
  deriving DecidableEq, Repr

/-- The response a completed HOST transaction gets (20_memory.md R70, 60_exceptions.md R181). -/
inductive BusResp where
  /-- A read completed with `err = 0` and this `rdata`. -/
  | readData (v : Word)
  /-- A write completed with `err = 0`. -/
  | writeDone
  /-- The access completed with `err = 1`; its `rdata` is unspecified and the model returns no value (R71, U3). -/
  | busError
  deriving DecidableEq, Repr

/-- What the machine's environment does next (00_scope.md R9).  notes/assumptions/3.md and 4.md. -/
inductive Event where
  /-- The HOST makes a bus access. -/
  | access (a : BusAccess)
  /-- The ENGINE takes its completion step if it is BUSY. -/
  | complete
  /-- `rst_n` is asserted and released (70_reset_and_hazards.md R190). -/
  | reset
  deriving DecidableEq, Repr

/-- No fault exists: "No rule of this spec calls for a fault" (60_exceptions.md R182, R170). -/
inductive Fault where
  deriving DecidableEq, Repr

/-- The reasons a step is refused. -/
inductive Refusal where
  /-- Raised by `exec` for an instruction that has no meaning yet.  Safe: the model stops where the hardware goes on. -/
  | notModelled (mnemonic : String)
  /-- Raised by `step` when the elaboration parameters are outside 00_scope.md R6 and R7, which "is not a TRB.  A model
  refuses it" (60_exceptions.md R182).  Safe: the spec gives such an elaboration no behaviour. -/
  | illegalElaboration
  deriving DecidableEq, Repr

/-- The whole machine. -/
structure State where
  /-- The elaboration parameters (00_scope.md R6); no step changes them. -/
  cfg : Config
  /-- ENG (10_state.md R50). -/
  eng : Eng
  /-- The latch set L (10_state.md R48). -/
  latch : Latch
  /-- The HOST access held by the stall rule (10_state.md R52(c), 70_reset_and_hazards.md R192). -/
  held : Option BusAccess
  /-- CTRL (10_state.md R28). -/
  ctrl : Ctrl
  /-- STATUS (10_state.md R29). -/
  status : Status
  /-- CMD (10_state.md R31). -/
  cmd : Word
  /-- ERR_INFO (10_state.md R32). -/
  errInfo : Word
  /-- XSCROLL (10_state.md R33). -/
  xscroll : Word
  /-- YSCROLL (10_state.md R34). -/
  yscroll : Word
  /-- QDIV bits 8:0 (10_state.md R35). -/
  qdiv : BitVec 9
  /-- SHEET_DIM (10_state.md R36). -/
  sheetDim : Word
  /-- SHEET_CUR (10_state.md R37). -/
  sheetCur : Word
  /-- PAL_COUNT bits 9:0 (10_state.md R38). -/
  palCount : BitVec 10
  /-- LUT_RGB bits 23:0 (10_state.md R39). -/
  lutRgb : BitVec 24
  /-- RAW (10_state.md R40). -/
  raw : Memory 32
  /-- IDX (10_state.md R41). -/
  idx : Memory 3
  /-- TILE's colour words: part k of cell c is element `3*c + k`, k in 0..2 (10_state.md R42, 20_memory.md R76). -/
  tileColor : Memory 32
  /-- TILE's databits: element c is cell c's (10_state.md R42). -/
  tileDb : Memory 2
  /-- FB (10_state.md R43): FIELD_W bits of the 9 are used. -/
  fb : Memory 9
  /-- RGB (10_state.md R44). -/
  rgb : Memory 24
  /-- PAL (10_state.md R45). -/
  pal : Memory 24
  /-- The model's own: how many draws have been made (10_state.md R47), so that each is fresh. -/
  draws : Nat
  /-- The model's own: what the environment does next, the first event first (00_scope.md R9). -/
  inputs : List Event
  /-- The response of the last HOST transaction that completed, none before the first since reset (20_memory.md R70). -/
  resp : Option BusResp
  deriving DecidableEq, Repr

/-- The state right after reset of a block elaborated with `c` (10_state.md R53).  The latch set, which R53 leaves
unspecified and nothing reads while IDLE, is 0: DESIGN CHOICE, notes/assumptions/8.md. -/
def State.resetOf (c : Config) : State where
  cfg := c
  eng := .idle
  latch := { cmdw := 0, xs := 0, ys := 0, transp := false, q := 0, sdim := 0 }
  held := none
  ctrl := { transpEn := false, irqEn := false }
  status := { done := false, err := false, errcode := 0, sheetValid := false, palValid := false }
  cmd := 0
  errInfo := 0
  xscroll := 0
  yscroll := 0
  qdiv := BitVec.ofNat 9 c.qReset
  sheetDim := 0
  sheetCur := 0
  palCount := 0
  lutRgb := 0
  raw := []
  idx := []
  tileColor := []
  tileDb := []
  fb := []
  rgb := []
  pal := []
  draws := 0
  inputs := []
  resp := none

/-- The machine right after reset: profile P216 with the common set-up (notes/assumptions/1.md), and no input pending. -/
def State.reset : State := State.resetOf Config.p216

end Sys2Proof.Machine
end

