-- ==== Sys2Proof/Machine/Flags.lean ====
section
/-! DEFINITION. Every flag computation the spec gives: STATUS and CTRL as words, W1C, the flag changes of acceptance and
of completion, and the interrupt line (10_state.md R28-R30, R50, R51; 60_exceptions.md R171-R173, R177). -/

namespace Sys2Proof.Machine

/-- The error codes of 60_exceptions.md R172 (0 is "no error"; 9-15 are never raised). -/
inductive ErrCode where
  | badCmd
  | decodeError
  | qConfig
  | palLevels
  | noSheet
  | sheetSmall
  | noPal
  | palRange
  deriving DecidableEq, Repr

/-- STATUS.ERRCODE of an error (R172). -/
def errCodeBits : ErrCode → BitVec 4
  | .badCmd => 1
  | .decodeError => 2
  | .qConfig => 3
  | .palLevels => 4
  | .noSheet => 5
  | .sheetSmall => 6
  | .noPal => 7
  | .palRange => 8

/-- STATUS.BUSY: "1 exactly while `ENG = BUSY`" (10_state.md R50). -/
def busyFlag (e : Eng) : Bool := decide (e = .busy)

/-- The CTRL word (10_state.md R28); reserved bits read 0. -/
def ctrlWord (c : Ctrl) : Word := 0#30 ++ BitVec.ofBool c.irqEn ++ BitVec.ofBool c.transpEn

/-- What a write of `v` stores in CTRL (10_state.md R28, R23). -/
def ctrlOfWord (v : Word) : Ctrl := { transpEn := v.getLsbD 0, irqEn := v.getLsbD 1 }

/-- The STATUS word (10_state.md R29): bits 31:18, PAL_VALID, SHEET_VALID, 15:12, ERRCODE, 7:3, ERR, DONE, BUSY. -/
def statusWord (e : Eng) (t : Status) : Word :=
  0#14 ++ BitVec.ofBool t.palValid ++ BitVec.ofBool t.sheetValid ++ 0#4 ++ t.errcode ++ 0#5 ++
    BitVec.ofBool t.err ++ BitVec.ofBool t.done ++ BitVec.ofBool (busyFlag e)

/-- A HOST write of `v` to STATUS: `if v[1] = 1 then DONE <- 0; if v[2] = 1 then ERR <- 0` (10_state.md R30). -/
def statusW1C (v : Word) (t : Status) : Status :=
  { t with done := t.done && !v.getLsbD 1, err := t.err && !v.getLsbD 2 }

/-- Acceptance: DONE, ERR and ERRCODE become 0 (10_state.md R50). -/
def statusAccepted (t : Status) : Status := { t with done := false, err := false, errcode := 0 }

/-- `complete()`: DONE becomes 1 (60_exceptions.md R173). -/
def statusCompleted (t : Status) : Status := { t with done := true }

/-- `raise Error(code, info)`: ERR becomes 1, ERRCODE the code, DONE 1 (60_exceptions.md R171). -/
def statusFailed (e : ErrCode) (t : Status) : Status := { t with err := true, errcode := errCodeBits e, done := true }

/-- The interrupt output: `irq = STATUS.DONE AND CTRL.IRQ_EN` (60_exceptions.md R177). -/
def irq (s : State) : Bool := s.status.done && s.ctrl.irqEn

/-- The port's `ready` output while a transaction is requested: 0 (a wait state) while an access is held (20_memory.md R70,
70_reset_and_hazards.md R192). -/
def ready (s : State) : Bool := s.held.isNone

end Sys2Proof.Machine
end

