-- ==== Sys2Proof/Machine/Operands.lean ====
section
/-! DEFINITION. The inputs of a command: the latch set (10_state.md R48) and the fields of the registers and latches a
command reads (10_state.md R36, R37).  The operands inside the command word (30_encoding.md R92) are Decode.lean's. -/

namespace Sys2Proof.Machine

/-- `sext_32(v)` (00_scope.md R11). -/
def sext32 (v : Word) : Int := v.toInt

/-- `a asr 3`, floor division by 8 (00_scope.md R11, D14). -/
def asr3 (a : Int) : Int := a / 8

/-- Bits 15:0 of SHEET_DIM, L.SDIM or SHEET_CUR: the width (10_state.md R36, R37). -/
def dimWidth (d : Word) : Nat := (d.extractLsb' 0 16).toNat

/-- Bits 31:16 of SHEET_DIM, L.SDIM or SHEET_CUR: the height (10_state.md R36, R37). -/
def dimHeight (d : Word) : Nat := (d.extractLsb' 16 16).toNat

/-- `latch(w)`: what the ENGINE copies when it accepts the word `w` (10_state.md R48). -/
def latchOf (s : State) (w : Word) : Latch :=
  { cmdw := w
    xs := sext32 s.xscroll
    ys := sext32 s.yscroll
    transp := s.ctrl.transpEn
    q := s.qdiv
    sdim := s.sheetDim }

end Sys2Proof.Machine
end

