-- ==== Sys2Proof/Machine/Params.lean ====
section
/-! DEFINITION. What follows from the elaboration parameters (00_scope.md R6, R7), and where BASE places the block
(20_memory.md R70, R72). -/

namespace Sys2Proof

/-- CW, the tile colour word width: `N_SUB * FIELD_W` (R6). -/
def Config.cw (c : Config) : Nat := c.nSub * c.fieldW

/-- PAL_DEPTH, the palette RAM entries: `2^FIELD_W` (R6). -/
def Config.palDepth (c : Config) : Nat := 2 ^ c.fieldW

/-- L_MAX, "the largest L with `L^3 <= PAL_DEPTH`" (R6): 6 for FIELD_W 8, 8 for FIELD_W 9. -/
def Config.lMax (c : Config) : Nat := if c.fieldW = 9 then 8 else 6

/-- SENT, the transparency sentinel: `2^FIELD_W - 1` (R6). -/
def Config.sent (c : Config) : BitVec 9 := BitVec.ofNat 9 (2 ^ c.fieldW - 1)

/-- MAP_WIDTH, the side of the square tile map: `2^MAP_LOG2` (R6). -/
def Config.mapWidth (c : Config) : Nat := 2 ^ c.mapLog2

/-- The elements of TILE: `MAP_WIDTH^2` (10_state.md R42). -/
def Config.cellCount (c : Config) : Nat := c.mapWidth * c.mapWidth

/-- The elements of FB and of RGB: `FB_W*FB_H` (10_state.md R43, R44). -/
def Config.fbSize (c : Config) : Nat := c.fbW * c.fbH

/-- The legal elaborations: the "legal values" column of R6 and the constraints of R7.  Any other is refused (R7, R182). -/
def Config.legal (c : Config) : Bool :=
  (c.fieldW == 8 || c.fieldW == 9) &&
  (c.nSub == 4 || c.nSub == 8) &&
  (decide (1 ≤ c.qReset) && decide (c.qReset ≤ 511)) &&
  (decide (1 ≤ c.mapLog2) && decide (c.mapLog2 ≤ 8)) &&
  (decide (1 ≤ c.fbW) && decide (c.fbW ≤ 65535)) &&
  (decide (1 ≤ c.fbH) && decide (c.fbH ≤ 65535)) &&
  decide (c.fbW * c.fbH ≤ 262144) &&
  (decide (64 ≤ c.rawCap) && decide (c.rawCap ≤ 262144)) &&
  c.base % 0x800000 == 0

/-- The low FIELD_W bits of a value: a palette index (10_state.md R43, 20_memory.md R75). -/
def Config.truncField (c : Config) (v : BitVec 9) : BitVec 9 := v &&& c.sent

/-- The bits of colour-word part `k` that exist: bit b with `32k + b < CW` (20_memory.md R76). -/
def Config.partMask (c : Config) (k : Nat) : Word := BitVec.ofNat 32 (2 ^ min 32 (c.cw - 32 * k) - 1)

/-- The offset the block sees for a system address, where the system's decoding of BASE selects the block (20_memory.md R70). -/
def Config.offsetOf (c : Config) (sysAddr : Nat) : Option (BitVec 23) :=
  if c.base ≤ sysAddr ∧ sysAddr < c.base + 0x800000 then some (BitVec.ofNat 23 (sysAddr - c.base)) else none

end Sys2Proof
end

