-- ==== Sys2Proof/Machine/Ops.lean ====
section
/-! DEFINITION. The shared operations: memories, draws, element reads and writes (00_scope.md R12), inclusive loops (R13),
accepting a command (10_state.md R50), ending one with success or with an error (60_exceptions.md R171, R173), and reset
(70_reset_and_hazards.md R190). -/

namespace Sys2Proof.Machine

/-! ### Memories as sorted lists of written elements -/

/-- The canonical form: element indices strictly rising, so that equal memories are equal lists.  An unlisted element has
no value, so no entry can equal what an unlisted one reads as. -/
abbrev Memory.wf {w : Nat} (m : Memory w) : Prop := m.Pairwise (fun a b => a.1 < b.1)

/-- The value of element `i`, none while its written mark is clear (10_state.md R47). -/
def memGet {w : Nat} : Memory w → Nat → Option (BitVec w)
  | [], _ => none
  | (k, v) :: m, i => if k = i then some v else memGet m i

/-- Element `i` takes the value `x` and its mark is set (10_state.md R47). -/
def memSet {w : Nat} : Memory w → Nat → BitVec w → Memory w
  | [], i, x => [(i, x)]
  | (k, v) :: m, i, x =>
    if i < k then (i, x) :: (k, v) :: m
    else if i = k then (i, x) :: m
    else (k, v) :: memSet m i x

/-! ### Loops -/

/-- `for v in 0..n-1`, v ascending (00_scope.md R13). -/
def forUpTo {σ : Type} : Nat → (Nat → σ → σ) → σ → σ
  | 0, _, s => s
  | n + 1, f, s => f n (forUpTo n f s)

/-- `for v in a..b`, "inclusive.  When `b < a` the loop body runs zero times" (00_scope.md R13). -/
def forIncl {σ : Type} (a b : Int) (f : Int → σ → σ) (s : σ) : σ :=
  forUpTo (b - a + 1).toNat (fun k => f (a + (k : Int))) s

/-! ### Draws and element reads (10_state.md R47) -/

/-- A draw has been made: the next one is another. -/
def State.drawn (s : State) : State := { s with draws := s.draws + 1 }

/-- A read of element `i` of the memory `m` of `s`: its value, or a fresh draw of the element's width (10_state.md R47). -/
def readElem {w : Nat} (m : Memory w) (i : Nat) (s : State) : BitVec w × State :=
  match memGet m i with
  | some v => (v, s)
  | none => ((Config.draw s.draws).setWidth w, s.drawn)

/-- `MemRead(RAW, i)`. -/
def readRaw (i : Nat) (s : State) : BitVec 32 × State := readElem s.raw i s

/-- `MemRead(IDX, i)`. -/
def readIdx (i : Nat) (s : State) : BitVec 3 × State := readElem s.idx i s

/-- `MemRead(FB, p)`: FIELD_W bits. -/
def readFb (p : Nat) (s : State) : BitVec 9 × State :=
  let r := readElem s.fb p s
  (s.cfg.truncField r.1, r.2)

/-- `MemRead(RGB, p)`. -/
def readRgb (p : Nat) (s : State) : BitVec 24 × State := readElem s.rgb p s

/-- `MemRead(PAL, j)`. -/
def readPal (j : Nat) (s : State) : BitVec 24 × State := readElem s.pal j s

/-- A read of colour-word part `k` of cell `c`: the bits that exist, the others 0; a part none of whose bits exist reads 0
and draws nothing (20_memory.md R76). -/
def readTilePart (c k : Nat) (s : State) : Word × State :=
  if s.cfg.partMask k = 0 then (0, s)
  else
    let r := readElem s.tileColor (3 * c + k) s
    (r.1 &&& s.cfg.partMask k, r.2)

/-- A read of the databits of cell `c`. -/
def readTileDb (c : Nat) (s : State) : BitVec 2 × State := readElem s.tileDb c s

/-! ### Element writes -/

/-- `MemWrite(RAW, i, v)`. -/
def writeRaw (i : Nat) (v : Word) (s : State) : State := { s with raw := memSet s.raw i v }

/-- `MemWrite(IDX, i, v)`. -/
def writeIdx (i : Nat) (v : BitVec 3) (s : State) : State := { s with idx := memSet s.idx i v }

/-- `MemWrite(FB, p, v)`: FIELD_W bits are stored (20_memory.md R75). -/
def writeFb (p : Nat) (v : BitVec 9) (s : State) : State := { s with fb := memSet s.fb p (s.cfg.truncField v) }

/-- `MemWrite(RGB, p, v)`. -/
def writeRgb (p : Nat) (v : BitVec 24) (s : State) : State := { s with rgb := memSet s.rgb p v }

/-- `MemWrite(PAL, j, v)`. -/
def writePal (j : Nat) (v : BitVec 24) (s : State) : State := { s with pal := memSet s.pal j v }

/-- A write of colour-word part `k` of cell `c`: it "replaces every existing colour bit of that part"; bits that do not
exist are discarded, so a part with none of them stores nothing (20_memory.md R76). -/
def writeTilePart (c k : Nat) (v : Word) (s : State) : State :=
  if s.cfg.partMask k = 0 then s
  else { s with tileColor := memSet s.tileColor (3 * c + k) (v &&& s.cfg.partMask k) }

/-- A write of the databits of cell `c`: `w[1:0]` is stored (20_memory.md R76, 42_tile_map_store.md R135). -/
def writeTileDb (c : Nat) (v : Word) (s : State) : State := { s with tileDb := memSet s.tileDb c (v.setWidth 2) }

/-! ### Accepting and ending a command -/

/-- A HOST write of `w` to CMD while IDLE (10_state.md R50, *Accept*; R31, R32). -/
def accept (w : Word) (s : State) : State :=
  { s with
    cmd := w
    latch := latchOf s w
    status := statusAccepted s.status
    errInfo := 0
    eng := .busy }

/-- `complete()` (60_exceptions.md R173). -/
def complete (s : State) : State := { s with status := statusCompleted s.status, eng := .idle }

/-- `raise Error(code, info)` (60_exceptions.md R171): the one way an error is taken; TRB has no traps (R170). -/
def raiseError (e : ErrCode) (info : Word) (s : State) : State :=
  { s with status := statusFailed e s.status, errInfo := info, eng := .idle }

/-- The reset event (70_reset_and_hazards.md R190, R199): every register at its reset value, every written mark clear, the command
and any held access dropped.  The elaboration, the environment's further events and the count of draws stay. -/
def resetEvent (s : State) : State :=
  { State.resetOf s.cfg with inputs := s.inputs, draws := s.draws }

end Sys2Proof.Machine
end

