-- ==== Sys2Proof/Machine/Registers.lean ====
section
/-! DEFINITION. The register file of the bus: the map of 10_state.md R22, what each register reads as and what a write to
it does (R23-R39). -/

namespace Sys2Proof.Machine

/-- The fifteen registers of 10_state.md R22. -/
inductive Reg where
  | id
  | params
  | fbDim
  | rawCapr
  | ctrl
  | status
  | cmd
  | errInfo
  | xscroll
  | yscroll
  | qdiv
  | sheetDim
  | sheetCur
  | palCount
  | lutRgb
  deriving DecidableEq, Repr

/-- A register's offset (R22). -/
def regOffset : Reg → Nat
  | .id => 0x000
  | .params => 0x004
  | .fbDim => 0x008
  | .rawCapr => 0x00C
  | .ctrl => 0x010
  | .status => 0x014
  | .cmd => 0x018
  | .errInfo => 0x01C
  | .xscroll => 0x020
  | .yscroll => 0x024
  | .qdiv => 0x028
  | .sheetDim => 0x02C
  | .sheetCur => 0x030
  | .palCount => 0x034
  | .lutRgb => 0x038

/-- The register at a word of the register region, none at 0x03C and above (R22, 20_memory.md R73). -/
def regOfWordIndex : Nat → Option Reg
  | 0 => some .id
  | 1 => some .params
  | 2 => some .fbDim
  | 3 => some .rawCapr
  | 4 => some .ctrl
  | 5 => some .status
  | 6 => some .cmd
  | 7 => some .errInfo
  | 8 => some .xscroll
  | 9 => some .yscroll
  | 10 => some .qdiv
  | 11 => some .sheetDim
  | 12 => some .sheetCur
  | 13 => some .palCount
  | 14 => some .lutRgb
  | _ => none

/-- PARAMS (R25). -/
def paramsWord (c : Config) : Word :=
  0#16 ++ BitVec.ofNat 4 c.lMax ++ BitVec.ofNat 4 c.fieldW ++ BitVec.ofNat 4 c.nSub ++ BitVec.ofNat 4 c.mapLog2

/-- FB_DIM (R26). -/
def fbDimWord (c : Config) : Word := BitVec.ofNat 16 c.fbH ++ BitVec.ofNat 16 c.fbW

/-- What a HOST read of a register returns (R24-R39).  It has no side effect (R23). -/
def readReg (r : Reg) (s : State) : Word :=
  match r with
  | .id => 0x544D4231
  | .params => paramsWord s.cfg
  | .fbDim => fbDimWord s.cfg
  | .rawCapr => BitVec.ofNat 32 s.cfg.rawCap
  | .ctrl => ctrlWord s.ctrl
  | .status => statusWord s.eng s.status
  | .cmd => s.cmd
  | .errInfo => s.errInfo
  | .xscroll => s.xscroll
  | .yscroll => s.yscroll
  | .qdiv => s.qdiv.setWidth 32
  | .sheetDim => s.sheetDim
  | .sheetCur => s.sheetCur
  | .palCount => s.palCount.setWidth 32
  | .lutRgb => s.lutRgb.setWidth 32

/-- What a HOST write of `v` to a register does (R23, R28, R30, R31, R33-R36).  A write to a read-only register is ignored
(R23).  A CMD write issues a command; the stall rule holds it while BUSY, so it comes here only while IDLE (R31). -/
def writeReg (r : Reg) (v : Word) (s : State) : State :=
  match r with
  | .ctrl => { s with ctrl := ctrlOfWord v }
  | .status => { s with status := statusW1C v s.status }
  | .cmd => accept v s
  | .xscroll => { s with xscroll := v }
  | .yscroll => { s with yscroll := v }
  | .qdiv => { s with qdiv := v.setWidth 9 }
  | .sheetDim => { s with sheetDim := v }
  | .id => s
  | .params => s
  | .fbDim => s
  | .rawCapr => s
  | .errInfo => s
  | .sheetCur => s
  | .palCount => s
  | .lutRgb => s

end Sys2Proof.Machine
end

