-- ==== Sys2Proof/Machine/Bus.lean ====
section
/-! DEFINITION. The bus slave (20_memory.md): the address map (R72, R73), the word views of the windows (R74-R76), one
transaction (R70, R71) and the stall rule (70_reset_and_hazards.md R192). -/

namespace Sys2Proof.Machine

/-- What an offset names (R72). -/
inductive Target where
  | reg (r : Reg)
  | pal (j : Nat)
  /-- Word `k` of cell `c`: colour parts 0-2, or databits (3) (R76). -/
  | tile (c k : Nat)
  | fb (p : Nat)
  | rgb (p : Nat)
  | raw (i : Nat)
  | idx (i : Nat)
  deriving DecidableEq, Repr

/-- The 32-bit access is supported: `size = 2` and `addr[1:0] = 0` (R71). -/
def BusAccess.supported (a : BusAccess) : Bool := a.size == 2 && a.addr.extractLsb' 0 2 == 0

/-- What a word-aligned offset names, none where it names "no register and no element of a window" (R72, R73). -/
def target (c : Config) (off : Nat) : Option Target :=
  if off < 0x010000 then (regOfWordIndex (off / 4)).map .reg
  else if off < 0x100000 then
    if (off - 0x010000) / 4 < c.palDepth then some (.pal ((off - 0x010000) / 4)) else none
  else if off < 0x200000 then
    if (off - 0x100000) / 16 < c.cellCount then some (.tile ((off - 0x100000) / 16) (off % 16 / 4)) else none
  else if off < 0x300000 then
    if (off - 0x200000) / 4 < c.fbSize then some (.fb ((off - 0x200000) / 4)) else none
  else if off < 0x400000 then
    if (off - 0x300000) / 4 < c.fbSize then some (.rgb ((off - 0x300000) / 4)) else none
  else if off < 0x500000 then
    if (off - 0x400000) / 4 < c.rawCap then some (.raw ((off - 0x400000) / 4)) else none
  else if off < 0x600000 then
    if (off - 0x500000) / 4 < c.rawCap then some (.idx ((off - 0x500000) / 4)) else none
  else none

/-- The offset of a register or an element's word (R72, R76; 30_encoding.md R96's window expressions). -/
def offsetOf : Target → Nat
  | .reg r => regOffset r
  | .pal j => 0x010000 + 4 * j
  | .tile c k => 0x100000 + 16 * c + 4 * k
  | .fb p => 0x200000 + 4 * p
  | .rgb p => 0x300000 + 4 * p
  | .raw i => 0x400000 + 4 * i
  | .idx i => 0x500000 + 4 * i

/-- What an access addresses, none where it gets a bus error (R71, R73). -/
def BusAccess.addressed (c : Config) (a : BusAccess) : Option Target :=
  if a.supported then target c a.addr.toNat else none

/-- What a HOST read of a target returns (R75, R76), and the state with any draw it made counted (10_state.md R47). -/
def readTarget (t : Target) (s : State) : Word × State :=
  match t with
  | .reg r => (readReg r s, s)
  | .pal j => let e := readPal j s; (e.1.setWidth 32, e.2)
  | .tile c k =>
    if k < 3 then readTilePart c k s
    else let e := readTileDb c s; (e.1.setWidth 32, e.2)
  | .fb p => let e := readFb p s; (e.1.setWidth 32, e.2)
  | .rgb p => let e := readRgb p s; (e.1.setWidth 32, e.2)
  | .raw i => readRaw i s
  | .idx i => let e := readIdx i s; (e.1.setWidth 32, e.2)

/-- What a HOST write of `v` to a target does (R74-R76); PAL, RGB and IDX are read-only windows, whose writes are ignored. -/
def writeTarget (t : Target) (v : Word) (s : State) : State :=
  match t with
  | .reg r => writeReg r v s
  | .pal _ => s
  | .tile c k => if k < 3 then writeTilePart c k v s else writeTileDb c v s
  | .fb p => writeFb p (v.setWidth 9) s
  | .rgb _ => s
  | .raw i => writeRaw i v s
  | .idx _ => s

/-- A transaction completes with a response (R70). -/
def respond (r : BusResp) (s : State) : State := { s with resp := some r }

/-- One HOST transaction, an atomic step (R70, R78).  An access that names nothing, or is not an aligned 32-bit one,
completes with `err = 1` and changes no state (R71, R73, 60_exceptions.md R181). -/
def transact (a : BusAccess) (s : State) : State :=
  match a.addressed s.cfg with
  | none => respond .busError s
  | some t =>
    if a.we then respond .writeDone (writeTarget t a.wdata s)
    else
      let r := readTarget t s
      respond (.readData r.1) r.2

/-- The accesses the stall rule holds while BUSY (70_reset_and_hazards.md R192): a write to CMD, and every read or write of a
window.  An access that gets a bus error names no window element and is not held (notes/assumptions/5.md). -/
def BusAccess.stalls (c : Config) (a : BusAccess) : Bool :=
  match a.addressed c with
  | none => false
  | some (.reg r) => a.we && r == .cmd
  | some _ => true

/-- The stall rule applies to `a` now (R192): the HOST step is not enabled while BUSY. -/
def mustWait (a : BusAccess) (s : State) : Bool := decide (s.eng = .busy) && a.stalls s.cfg

end Sys2Proof.Machine
end

