-- ==== Sys2Proof/Machine/PaletteLookupEngine.lean ====
section
/-! DEFINITION. The palette_lookup_engine and its commands BUILD_PAL, EXPAND and LOOKUP (41_palette_lookup_engine.md). -/

namespace Sys2Proof.Machine

/-- `scale(v, L) = (v * 255) div (L - 1)` (R111). -/
def scale (v l : Nat) : Nat := v * 255 / (l - 1)

/-- A palette entry: red in bits 23:16, green in 15:8, blue in 7:0 (R110). -/
def rgbEntry (r g b : Nat) : BitVec 24 := BitVec.ofNat 8 r ++ BitVec.ofNat 8 g ++ BitVec.ofNat 8 b

/-- The entry of levels (r, g, b): `{scale(r,Lv)[7:0], scale(g,Lv)[7:0], scale(b,Lv)[7:0]}` (R112). -/
def levelEntry (lv r g b : Nat) : BitVec 24 := rgbEntry (scale r lv) (scale g lv) (scale b lv)

/-- `j = r*Lv*Lv + g*Lv + b` (R112). -/
def levelIndex (lv r g b : Nat) : Nat := r * lv * lv + g * lv + b

/-- BUILD_PAL's loops: red outer, green middle, blue inner (R112). -/
def buildEntries (lv : Nat) (s : State) : State :=
  forUpTo lv (fun r => forUpTo lv (fun g => forUpTo lv (fun b => writePal (levelIndex lv r g b) (levelEntry lv r g b)))) s

/-- The palette becomes valid: `R[PAL_COUNT] <- Lv*Lv*Lv; STATUS.PAL_VALID <- 1` (R112). -/
def installPalette (lv : Nat) (s : State) : State :=
  { s with palCount := BitVec.ofNat 10 (lv * lv * lv), status := { s.status with palValid := true } }

/-- `BUILD_PAL lvl` (R112). -/
def execBuildPal (lvl : Nat) (s : State) : Host.Outcome State Fault Refusal :=
  if lvl < 2 ∨ s.cfg.lMax < lvl then .next (raiseError .palLevels (BitVec.ofNat 32 lvl) s)
  else .next (complete (installPalette lvl (buildEntries lvl s)))

/-- `for p in 0..n-1: v[p] <- MemRead(FB, p)`: the values in order, "each FB element is read exactly once" (R113). -/
def readFbRun : Nat → State → List (BitVec 9) × State
  | 0, s => ([], s)
  | n + 1, s =>
    let r := readFbRun n s
    let e := readFb n r.2
    (r.1 ++ [e.1], e.2)

/-- The lowest p with `v[p] >= PAL_COUNT` (R113). -/
def firstOutOfRange (palCount : BitVec 10) (vs : List (BitVec 9)) : Option Nat :=
  vs.findIdx? (fun v => decide (palCount.toNat ≤ v.toNat))

/-- One turn of EXPAND's last loop: `MemWrite(RGB, p, MemRead(PAL, v[p]))` (R113). -/
def expandPixel (vs : List (BitVec 9)) (p : Nat) (s : State) : State :=
  let e := readPal (vs.getD p 0).toNat s
  writeRgb p e.1 e.2

/-- `EXPAND` (R113): every index is checked before any RGB element is written (60_exceptions.md R174). -/
def execExpand (s : State) : Host.Outcome State Fault Refusal :=
  if s.status.palValid = false then .next (raiseError .noPal 0 s)
  else
    let r := readFbRun s.cfg.fbSize s
    match firstOutOfRange s.palCount r.1 with
    | some p => .next (raiseError .palRange (BitVec.ofNat 32 p) r.2)
    | none => .next (complete (forUpTo s.cfg.fbSize (expandPixel r.1) r.2))

/-- `R[LUT_RGB] <- zext_32(MemRead(PAL, I))` (R114). -/
def lookupEntry (idx : Nat) (s : State) : State :=
  let e := readPal idx s
  { e.2 with lutRgb := e.1 }

/-- `LOOKUP idx` (R114). -/
def execLookup (idx : Nat) (s : State) : Host.Outcome State Fault Refusal :=
  if s.status.palValid = false then .next (raiseError .noPal 0 s)
  else if s.palCount.toNat ≤ idx then .next (raiseError .palRange (BitVec.ofNat 32 idx) s)
  else .next (complete (lookupEntry idx s))

end Sys2Proof.Machine
end

