-- ==== Sys2Proof/Machine/SpriteSheetDecoder.lean ====
section
/-! DEFINITION. The sprite_sheet_decoder and its command DECODE (40_sprite_sheet_decoder.md). -/

namespace Sys2Proof.Machine

/-- `quant(c, Q) = c div Q` (R101). -/
def quant (c q : Nat) : Nat := c / q

/-- `LEVELS(Q) = (255 div Q) + 1` (R101). -/
def levels (q : Nat) : Nat := 255 / q + 1

/-- The channel of a RAW element: bits 7:0, unsigned (R104). -/
def channel (v : Word) : Nat := (v.extractLsb' 0 8).toNat

/-- One turn of DECODE's loop: `c <- MemRead(RAW, i)[7:0]; MemWrite(IDX, i, c div L.Q)` (R102). -/
def decodePixel (q : BitVec 9) (i : Nat) (s : State) : State :=
  let r := readRaw i s
  writeIdx i (BitVec.ofNat 3 (quant (channel r.1) q.toNat)) r.2

/-- The image is absent or does not fit RAW: `W = 0 or H = 0 or W*H > RAW_CAP` (R102, D50). -/
def badImage (c : Config) (sdim : Word) : Bool :=
  dimWidth sdim == 0 || dimHeight sdim == 0 || decide (c.rawCap < dimWidth sdim * dimHeight sdim)

/-- The quantization factor is illegal: `Q = 0 or (255 div Q) >= N_SUB` (R102, R103, D15). -/
def badQ (c : Config) (q : BitVec 9) : Bool := q == 0 || decide (c.nSub ≤ quant 255 q.toNat)

/-- DECODE's loop over all pixels of the image (R102). -/
def decodeAll (s : State) : State :=
  forUpTo (dimWidth s.latch.sdim * dimHeight s.latch.sdim) (decodePixel s.latch.q) s

/-- The sheet becomes current: `R[SHEET_CUR] <- L.SDIM; STATUS.SHEET_VALID <- 1` (R102). -/
def installSheet (s : State) : State :=
  { s with sheetCur := s.latch.sdim, status := { s.status with sheetValid := true } }

/-- `DECODE` (R102).  DECODE_ERROR is checked before QCONFIG (60_exceptions.md R175). -/
def execDecode (s : State) : Host.Outcome State Fault Refusal :=
  if badImage s.cfg s.latch.sdim then .next (raiseError .decodeError s.latch.sdim s)
  else if badQ s.cfg s.latch.q then .next (raiseError .qConfig (s.latch.q.setWidth 32) s)
  else .next (complete (installSheet (decodeAll s)))

end Sys2Proof.Machine
end

