-- ==== Sys2Proof/Machine/TileMapStore.lean ====
section
/-! DEFINITION. The tile map store (42_tile_map_store.md): the wrapped lookup, sub-colour extraction, packing and the
mirror flags.  It has no command; RENDER and the TILE window use it. -/

namespace Sys2Proof.Machine

/-- The element of cell (tx, ty) for any integers tx and ty:
`(tx mod MAP_WIDTH) + (ty mod MAP_WIDTH) * MAP_WIDTH` (R130, R131). -/
def cellIndex (c : Config) (tx ty : Int) : Nat :=
  (tx % (c.mapWidth : Int)).toNat + (ty % (c.mapWidth : Int)).toNat * c.mapWidth

/-- The colour word of cell `c`, its parts in little-endian word order; bits at or above CW are 0 and each part whose mark
is clear is a draw (20_memory.md R76, R77). -/
def readColor (c : Nat) (s : State) : BitVec 96 × State :=
  let r0 := readTilePart c 0 s
  let r1 := readTilePart c 1 r0.2
  let r2 := readTilePart c 2 r1.2
  (r2.1 ++ r1.1 ++ r0.1, r2.2)

/-- `get(tx, ty)`: the pair (color, databits) of the wrapped cell (R131). -/
def getCell (tx ty : Int) (s : State) : (BitVec 96 × BitVec 2) × State :=
  let r := readColor (cellIndex s.cfg tx ty) s
  let d := readTileDb (cellIndex s.cfg tx ty) r.2
  ((r.1, d.1), d.2)

/-- `sub(color, si) = (color >> (si * FIELD_W)) & (2^FIELD_W - 1)` (R133). -/
def sub (c : Config) (color : BitVec 96) (si : Nat) : BitVec 9 :=
  c.truncField ((color >>> (si * c.fieldW)).setWidth 9)

/-- The colour word of the sub-colours `subs`, `Σ_k s_k << (k*FIELD_W)` (R134). -/
def packColor (c : Config) : List Nat → Nat
  | [] => 0
  | x :: xs => x + packColor c xs * 2 ^ c.fieldW

/-- MIRROR_X, databits bit 0 (R135). -/
def mirrorX (db : BitVec 2) : Bool := db.getLsbD 0

/-- MIRROR_Y, databits bit 1 (R135). -/
def mirrorY (db : BitVec 2) : Bool := db.getLsbD 1

end Sys2Proof.Machine
end

