-- ==== Sys2Proof/Machine/TilemapRasterizer.lean ====
section
/-! DEFINITION. The tilemap_rasterizer and the tile_sprite_blitter: the command RENDER (43_tilemap_rasterizer.md).
All sums are on unbounded integers (R155). -/

namespace Sys2Proof.Machine

/-- The view position lies outside `[0, FB_W) × [0, FB_H)` (R145). -/
def clipped (c : Config) (px py : Int) : Bool :=
  decide (px < 0) || decide ((c.fbW : Int) ≤ px) || decide (py < 0) || decide ((c.fbH : Int) ≤ py)

/-- The mirrored source coordinate: `7 - v` or `v` (R146). -/
def mirrored (m : Bool) (v : Nat) : Nat := if m then 7 - v else v

/-- The sheet element a tile's local pixel (x, y) reads: `sx + sy*SW` (R144, R146, R147). -/
def sheetElement (db : BitVec 2) (sw x y : Nat) : Nat :=
  mirrored (mirrorX db) x + mirrored (mirrorY db) y * sw

/-- Transparency: the write of `c` is skipped (R148). -/
def skipsWrite (cfg : Config) (transp : Bool) (c : BitVec 9) : Bool := transp && c == cfg.sent

/-- One local pixel (x, y) of BLIT (R144): clip, read the sheet, extract, skip or write (R145-R149). -/
def blitPixel (xp yp : Int) (color : BitVec 96) (db : BitVec 2) (sw : Nat) (transp : Bool) (y x : Nat) (s : State) : State :=
  let px : Int := x + xp
  let py : Int := y + yp
  if clipped s.cfg px py then s
  else
    let r := readIdx (sheetElement db sw x y) s
    let c := sub s.cfg color r.1.toNat
    if skipsWrite s.cfg transp c then r.2
    else writeFb (px.toNat + py.toNat * s.cfg.fbW) c r.2

/-- `BLIT(xp, yp, color, databits, SW, transp)` (R144): y outer, x inner (R143). -/
def blit (xp yp : Int) (color : BitVec 96) (db : BitVec 2) (sw : Nat) (transp : Bool) (s : State) : State :=
  forUpTo 8 (fun y => forUpTo 8 (fun x => blitPixel xp yp color db sw transp y x)) s

/-- One visited tile of RENDER: place it (R142), look its cell up (R131) and blit it (R144). -/
def renderTile (xs ys : Int) (sw : Nat) (transp : Bool) (yt xt : Int) (s : State) : State :=
  let g := getCell xt yt s
  blit (xt * 8 - xs) (yt * 8 - ys) g.1.1 g.1.2 sw transp g.2

/-- RENDER's loops over the visible tile range, both bounds inclusive, rows outer (R140, R141, R143). -/
def renderTiles (s : State) : State :=
  let xs := s.latch.xs
  let ys := s.latch.ys
  forIncl (asr3 ys) (asr3 (ys + s.cfg.fbH))
    (fun yt => forIncl (asr3 xs) (asr3 (xs + s.cfg.fbW))
      (fun xt => renderTile xs ys (dimWidth s.sheetCur) s.latch.transp yt xt)) s

/-- `RENDER` (R140). -/
def execRender (s : State) : Host.Outcome State Fault Refusal :=
  if s.status.sheetValid = false then .next (raiseError .noSheet 0 s)
  else if dimWidth s.sheetCur < 8 ∨ dimHeight s.sheetCur < 8 then .next (raiseError .sheetSmall s.sheetCur s)
  else .next (complete (renderTiles s))

end Sys2Proof.Machine
end

