-- ==== Sys2Proof/Machine/Dispatch.lean ====
section
/-! DEFINITION. `Exec` of a legal command (10_state.md R50, 30_encoding.md R93): one arm per constructor of Instr. -/

namespace Sys2Proof.Machine

def exec (i : Instr) (s : State) : Host.Outcome State Fault Refusal :=
  match i with
  | .decode => Sys2Proof.Machine.execDecode s
  | .buildPal lvl => Sys2Proof.Machine.execBuildPal lvl s
  | .render => Sys2Proof.Machine.execRender s
  | .expand => Sys2Proof.Machine.execExpand s
  | .lookup idx => Sys2Proof.Machine.execLookup idx s

end Sys2Proof.Machine
end

