-- ==== Sys2Proof/Machine/Engine.lean ====
section
/-! DEFINITION. The ENGINE's completion step (10_state.md R50) and which of the steps of 00_scope.md R9 comes next. -/

namespace Sys2Proof.Machine

/-- The completion step: `Exec(L.CMDW)` (10_state.md R50).  A legal word runs its command; any other word does
`raise Error(BADCMD, w)` (30_encoding.md R93, R94). -/
def completionStep (s : State) : Host.Outcome State Fault Refusal :=
  match decode s.latch.cmdw with
  | .ok i => exec i s
  | .error _ => .next (raiseError .badCmd s.latch.cmdw s)

/-- The environment's list after the ENGINE has had its turn: one leading `complete` is used up. -/
def afterTurn : List Event → List Event
  | .complete :: rest => rest
  | l => l

/-- The ENGINE's turn: the completion step while BUSY; while IDLE no step is enabled and nothing changes but the
environment's list (00_scope.md R9). -/
def engineTurn (s : State) : Host.Outcome State Fault Refusal :=
  if s.eng = .busy then completionStep { s with inputs := afterTurn s.inputs }
  else .next { s with inputs := afterTurn s.inputs }

/-- The HOST presents an access: it completes in this step, or the stall rule holds it (70_reset_and_hazards.md R192). -/
def present (a : BusAccess) (s : State) : State :=
  if mustWait a s then { s with held := some a } else transact a s

/-- The step of a legal elaboration (00_scope.md R9).  Reset outranks everything (60_exceptions.md R175).  While an access is held
the port is occupied: the ENGINE completes, then the held access is performed against the post-command state (R192).
Otherwise the environment's list says what comes next; when it is empty a BUSY ENGINE completes (R200) and an IDLE block
waits.  notes/assumptions/4.md. -/
def nextStep (s : State) : Host.Outcome State Fault Refusal :=
  match s.inputs, s.held with
  | .reset :: rest, _ => .next (resetEvent { s with inputs := rest })
  | _, some a => if s.eng = .busy then engineTurn s else .next (transact a { s with held := none })
  | .access a :: rest, none => .next (present a { s with inputs := rest })
  | .complete :: _, none => engineTurn s
  | [], none => engineTurn s

/-- The command word `w` stands accepted and the ENGINE has the next turn: what a HOST write to CMD leaves (10_state.md
R50), with a `complete` put before any further events of the environment. -/
def placeCommand (w : Word) (s : State) : State :=
  let t := accept w s
  { t with inputs := match s.inputs with | [] => [] | l => .complete :: l }

end Sys2Proof.Machine
end

