-- ==== Sys2Proof/Machine/Step.lean ====
section
/-! DEFINITION. The step of the machine, and how a command word is placed where the next step executes it. -/

namespace Sys2Proof.Machine

/-- One step (00_scope.md R9).  An elaboration outside R6 and R7 is refused (R7, 60_exceptions.md R182). -/
def step (s : State) : Host.Outcome State Fault Refusal :=
  if s.cfg.legal then nextStep s else .refused .illegalElaboration

/-- `s` with the command word `w` accepted (R50), so that the very next step is its completion step. -/
def State.withFetchWord (s : State) (nbits w : Nat) : State := placeCommand (tableWord nbits w) s

end Sys2Proof.Machine
end

