-- ==== Sys2Proof/Safety.lean ====
section
/-! DEFINITION. What counts as a safe state and a safe step, and the terms the statements are made in. -/

namespace Sys2Proof.Machine

/-! ### Terms of the statements -/

/-- A 32-bit HOST read at a block offset (20_memory.md R70). -/
def readAt (off : Nat) : BusAccess := { we := false, addr := BitVec.ofNat 23 off, size := 2, wdata := 0 }

/-- A 32-bit HOST write of `v` at a block offset (20_memory.md R70). -/
def writeAt (off : Nat) (v : Word) : BusAccess := { we := true, addr := BitVec.ofNat 23 off, size := 2, wdata := v }

/-- The environment asserts reset next (70_reset_and_hazards.md R190). -/
def resetNext (s : State) : Bool :=
  match s.inputs with
  | .reset :: _ => true
  | _ => false

/-- The next step of a BUSY block is the ENGINE's: no reset comes first, and the HOST has an access held or presents
none (00_scope.md R9, 70_reset_and_hazards.md R192). -/
def engineHasTurn (s : State) : Bool :=
  match s.inputs, s.held with
  | .reset :: _, _ => false
  | _, some _ => true
  | .access _ :: _, none => false
  | _, none => true

/-- The word is illegal in R94's words (30_encoding.md): OP is 0x00 or 0x06-0xFF, or OP is 0x01-0x05 with a must-be-0 bit set. -/
def illegalWord (w : Word) : Prop :=
  w.toNat % 256 = 0 ∨ 6 ≤ w.toNat % 256 ∨
    (w.toNat % 256 = 1 ∧ w.toNat / 256 ≠ 0) ∨
    (w.toNat % 256 = 2 ∧ w.toNat / 4096 ≠ 0) ∨
    (w.toNat % 256 = 3 ∧ w.toNat / 256 ≠ 0) ∨
    (w.toNat % 256 = 4 ∧ w.toNat / 256 ≠ 0) ∨
    (w.toNat % 256 = 5 ∧ (w.toNat / 256 % 256 ≠ 0 ∨ w.toNat / 2 ^ 25 ≠ 0))

/-- Bits 15:0 of SHEET_DIM, L.SDIM or SHEET_CUR, the width W (10_state.md R36, R37). -/
def lowHalf (d : Word) : Nat := d.toNat % 2 ^ 16

/-- Bits 31:16 of SHEET_DIM, L.SDIM or SHEET_CUR, the height H (10_state.md R36, R37). -/
def highHalf (d : Word) : Nat := d.toNat / 2 ^ 16

/-- The value part `k` of cell `c` reads as where its mark is set or none of its bits exist (20_memory.md R76). -/
def writtenPart (s : State) (c k : Nat) : Option Word :=
  if s.cfg.partMask k = 0 then some 0 else (memGet s.tileColor (3 * c + k)).map (fun v => v &&& s.cfg.partMask k)

/-- The colour word of cell `c` where every part of it has been written (10_state.md R42, R47). -/
def writtenColor (s : State) (c : Nat) : Option (BitVec 96) :=
  match writtenPart s c 0, writtenPart s c 1, writtenPart s c 2 with
  | some p0, some p1, some p2 => some (p2 ++ p1 ++ p0)
  | _, _, _ => none

/-- The cell that covers view pixel (px, py): that of `get((xs + px) asr 3, (ys + py) asr 3)` (43_tilemap_rasterizer.md R150,
42_tile_map_store.md R131). -/
def coveringCell (s : State) (px py : Nat) : Nat :=
  ((s.latch.xs + px) / 8 % 2 ^ s.cfg.mapLog2).toNat + ((s.latch.ys + py) / 8 % 2 ^ s.cfg.mapLog2).toNat * 2 ^ s.cfg.mapLog2

/-- The sheet element view pixel (px, py) reads: `sx + sy*SW` with local coordinates `(xs + px) mod 8` and
`(ys + py) mod 8`, mirrored by the covering cell's databits (43_tilemap_rasterizer.md R150). -/
def coveringElement (s : State) (db : BitVec 2) (px py : Nat) : Nat :=
  let x := ((s.latch.xs + px) % 8).toNat
  let y := ((s.latch.ys + py) % 8).toNat
  (if db.getLsbD 0 then 7 - x else x) + (if db.getLsbD 1 then 7 - y else y) * lowHalf s.sheetCur

/-- An outcome with `f` applied to its next state. -/
def mapNext (f : State → State) : Host.Outcome State Fault Refusal → Host.Outcome State Fault Refusal
  | .next s => .next (f s)
  | .fault r => .fault r
  | .refused r => .refused r

/-- The HOST-writable inputs of the commands take other values (70_reset_and_hazards.md R193). -/
def withHostRegs (x y : Word) (c : Ctrl) (q : BitVec 9) (d : Word) (s : State) : State :=
  { s with xscroll := x, yscroll := y, ctrl := c, qdiv := q, sheetDim := d }

/-! ### Invariants -/

/-- Every memory is in its canonical form, lists only elements that exist, and stores only bits that exist
(10_state.md R40-R45, 20_memory.md R75, R76). -/
structure MemoriesOk (s : State) : Prop where
  legal : s.cfg.legal = true
  raw_wf : Memory.wf s.raw
  raw_in : ∀ e ∈ s.raw, e.1 < s.cfg.rawCap
  idx_wf : Memory.wf s.idx
  idx_in : ∀ e ∈ s.idx, e.1 < s.cfg.rawCap
  tileColor_wf : Memory.wf s.tileColor
  tileColor_in : ∀ e ∈ s.tileColor, e.1 < 3 * s.cfg.cellCount ∧ e.2 &&& s.cfg.partMask (e.1 % 3) = e.2
  tileDb_wf : Memory.wf s.tileDb
  tileDb_in : ∀ e ∈ s.tileDb, e.1 < s.cfg.cellCount
  fb_wf : Memory.wf s.fb
  fb_in : ∀ e ∈ s.fb, e.1 < s.cfg.fbSize ∧ e.2.toNat < 2 ^ s.cfg.fieldW
  rgb_wf : Memory.wf s.rgb
  rgb_in : ∀ e ∈ s.rgb, e.1 < s.cfg.fbSize
  pal_wf : Memory.wf s.pal
  pal_in : ∀ e ∈ s.pal, e.1 < s.cfg.palDepth

/-- STATUS, ERR_INFO, CMD and the held access agree with ENG: while BUSY no outcome is shown and CMD is the running
command's word (10_state.md R31, R50); only the codes 0 to 8 occur, and ERR only with a code (60_exceptions.md R172); only an access
the stall rule holds is held (70_reset_and_hazards.md R192). -/
structure StatusOk (s : State) : Prop where
  busy_done : s.eng = .busy → s.status.done = false
  busy_err : s.eng = .busy → s.status.err = false
  busy_errcode : s.eng = .busy → s.status.errcode = 0
  busy_errInfo : s.eng = .busy → s.errInfo = 0
  busy_cmd : s.eng = .busy → s.latch.cmdw = s.cmd
  errcode_le : s.status.errcode.toNat ≤ 8
  err_code : s.status.err = true → s.status.errcode ≠ 0
  held_stalls : ∀ a, s.held = some a → a.stalls s.cfg = true

/-- A valid sheet fits IDX and every pixel of it selects an existing sub-colour (40_sprite_sheet_decoder.md R105); a valid palette
is the whole cube of a legal L (41_palette_lookup_engine.md R115); without them the result registers are 0. -/
structure SheetPaletteOk (s : State) : Prop where
  sheet_area : s.status.sheetValid = true → 0 < lowHalf s.sheetCur ∧ 0 < highHalf s.sheetCur ∧
    lowHalf s.sheetCur * highHalf s.sheetCur ≤ s.cfg.rawCap
  sheet_idx : s.status.sheetValid = true → ∀ i, i < lowHalf s.sheetCur * highHalf s.sheetCur →
    ∃ v, memGet s.idx i = some v ∧ v.toNat < s.cfg.nSub
  no_sheet : s.status.sheetValid = false → s.sheetCur = 0
  palette : s.status.palValid = true → ∃ l, 2 ≤ l ∧ l ≤ s.cfg.lMax ∧ s.palCount.toNat = l * l * l ∧
    ∀ r g b, r < l → g < l → b < l → memGet s.pal (r * l * l + g * l + b) = some (levelEntry l r g b)
  no_palette : s.status.palValid = false → s.palCount = 0

/-! ### Safe steps -/

/-- A step is safe when it answers a next state: "Nothing in the block stops or hangs on an error" (60_exceptions.md R170). -/
def SafeStep (s : State) : Prop := ∃ t, step s = .next t

end Sys2Proof.Machine
end

