-- ==== Sys2Proof/Certificates/Slice0/Obligations.lean ====
section
/-! DEFINITION. The statements for the provers.  Each docstring names the rules of spec/ it formalises. -/

open Sys2Proof Sys2Proof.Machine

/-! ### Encoding (30_encoding.md) -/

/-- R91, R92: decoding the word of any well-formed command gives the command back, with every operand at every value. -/
def Obligations.DecodeOfEncode : Prop :=
  ∀ i : Instr, i.wellFormed = true → decode (encode i) = .ok i

/-- R97: a legal word is the word of the command it decodes to, so disassembling and reassembling returns it. -/
def Obligations.EncodeOfDecode : Prop :=
  ∀ (w : Word) (i : Instr), decode w = .ok i →
    encode i = w ∧ i.wellFormed = true ∧ disassemble w = .command i ∧ assemble (disassemble w) = w

/-- R92, R93, R94: which words are legal, which command each is, and which operand it carries. -/
def Obligations.DecodeLegalExactly : Prop :=
  ∀ w : Word,
    ((∃ i, decode w = .ok i) ↔ ¬ illegalWord w) ∧
    (w = 0x00000001 → decode w = .ok .decode) ∧
    (w &&& 0xFFFFF0FF = 0x00000002 → decode w = .ok (.buildPal (w.toNat / 2 ^ 8 % 2 ^ 4))) ∧
    (w = 0x00000003 → decode w = .ok .render) ∧
    (w = 0x00000004 → decode w = .ok .expand) ∧
    (w &&& 0xFE00FFFF = 0x00000005 → decode w = .ok (.lookup (w.toNat / 2 ^ 16 % 2 ^ 9)))

/-- R93, R94: words written out in 95_test_vectors.md decode to the commands they stand for, or are refused by name. -/
def Obligations.SpecWordsDecode : Prop :=
  decode 0x00000001 = .ok .decode ∧ decode 0x00000602 = .ok (.buildPal 6) ∧ decode 0x00000F02 = .ok (.buildPal 15) ∧
  decode 0x00000003 = .ok .render ∧ decode 0x00000004 = .ok .expand ∧ decode 0x00640005 = .ok (.lookup 100) ∧
  decode 0x01FF0005 = .ok (.lookup 511) ∧ decode 0x00000000 = .error .unknownOp ∧ decode 0x00000009 = .error .unknownOp ∧
  decode 0x00000101 = .error .mustBeZero ∧ decode 0x00001002 = .error .mustBeZero ∧
  decode 0x0000FF05 = .error .mustBeZero ∧ decode 0x02000005 = .error .mustBeZero

/-! ### Steps (00_scope.md R9, 10_state.md R50) -/

/-- R50: when a BUSY ENGINE has its turn, the step is `exec` of the decoded command, with at most one `complete` taken from the
environment's list; and the step after a command word has been placed runs exactly that word.  (When the ENGINE has its turn, and what
placing a word stands for, are the model's choices: notes/assumptions/3.md, 4.md, 14.md.) -/
def Obligations.StepRunsDecodedCommand : Prop :=
  (∀ (s : State) (i : Instr), s.cfg.legal = true → s.eng = .busy → engineHasTurn s = true → decode s.latch.cmdw = .ok i →
    step s = exec i { s with inputs := afterTurn s.inputs }) ∧
  (∀ (s : State) (nbits w : Nat) (i : Instr), s.cfg.legal = true → decodeTableWord nbits w = some i →
    step (s.withFetchWord nbits w) = exec i (accept (tableWord nbits w) s))

/-- R94: an illegal word written to CMD while IDLE is accepted like any other (CMD takes it, BUSY is set); and from every BUSY state whose
latched word is illegal, the completion step ends with ERRCODE 1 and ERR_INFO the word, changing nothing else but the environment's
list.  (When the ENGINE has its turn is the model's scheduling: notes/assumptions/4.md.) -/
def Obligations.IllegalWordEndsInBadcmd : Prop :=
  (∀ (s : State) (w : Word) (rest : List Event), s.cfg.legal = true → s.eng = .idle → s.held = none →
    s.inputs = .access (writeAt 0x018 w) :: rest → illegalWord w →
    ∃ t, step s = .next t ∧ t.cmd = w ∧ t.latch.cmdw = w ∧ t.eng = .busy ∧ t.held = none ∧ t.inputs = rest) ∧
  (∀ s : State, s.cfg.legal = true → s.eng = .busy → engineHasTurn s = true → illegalWord s.latch.cmdw →
    step s = .next { s with
      inputs := afterTurn s.inputs, eng := .idle, errInfo := s.latch.cmdw,
      status := { s.status with err := true, errcode := 1, done := true } })

/-- R6, R7, R182: a step is refused exactly when a parameter is outside the legal values of R6 or the constraints of R7, which is what
`Config.legal` means.  (That R6's column is refused and not R7's constraints alone is the model's reading: notes/assumptions/2.md.) -/
def Obligations.IllegalElaborationRefused : Prop :=
  ∀ s : State,
    (step s = .refused .illegalElaboration ↔ s.cfg.legal = false) ∧
    (s.cfg.legal = false ↔
      (s.cfg.fieldW ≠ 8 ∧ s.cfg.fieldW ≠ 9) ∨ (s.cfg.nSub ≠ 4 ∧ s.cfg.nSub ≠ 8) ∨
      s.cfg.qReset < 1 ∨ 511 < s.cfg.qReset ∨ s.cfg.mapLog2 < 1 ∨ 8 < s.cfg.mapLog2 ∨
      s.cfg.fbW < 1 ∨ 65535 < s.cfg.fbW ∨ s.cfg.fbH < 1 ∨ 65535 < s.cfg.fbH ∨ 262144 < s.cfg.fbW * s.cfg.fbH ∨
      s.cfg.rawCap < 64 ∨ 262144 < s.cfg.rawCap ∨ s.cfg.base % 0x800000 ≠ 0)

/-- R170: no state of a legal elaboration stops the block. -/
def Obligations.LegalStepIsSafe : Prop :=
  ∀ s : State, s.cfg.legal = true → SafeStep s

/-- R9, R70, R48, R50: while IDLE the step performs the HOST's access as one transaction, also one that was held (R192; held accesses are a
field of the model, notes/assumptions/5.md).  A write to CMD is then accepted: CMD, the latch set, the cleared STATUS fields and ERR_INFO,
ENG; every other piece of state stays. -/
def Obligations.IdleBlockPerformsAccesses : Prop :=
  (∀ (s : State) (a : BusAccess) (rest : List Event), s.cfg.legal = true → s.eng = .idle → s.held = none →
    s.inputs = .access a :: rest → step s = .next (transact a { s with inputs := rest })) ∧
  (∀ (s : State) (a : BusAccess), s.cfg.legal = true → s.eng = .idle → s.held = some a → resetNext s = false →
    step s = .next (transact a { s with held := none })) ∧
  (∀ (s : State) (w : Word) (rest : List Event), s.cfg.legal = true → s.eng = .idle → s.held = none →
    s.inputs = .access (writeAt 0x018 w) :: rest →
    step s = .next { s with
      inputs := rest, resp := some .writeDone, cmd := w, errInfo := 0, eng := .busy,
      latch := { cmdw := w, xs := s.xscroll.toInt, ys := s.yscroll.toInt, transp := s.ctrl.transpEn,
                 q := s.qdiv, sdim := s.sheetDim },
      status := { s.status with done := false, err := false, errcode := 0 } })

/-- R192: while BUSY a CMD write and every window access is held (`ready = 0`, nothing else changes), is performed once the completion step
has left the ENGINE IDLE (a CMD write is then accepted), and an access to any other register is not held.  The model's choices here are that
the completion step comes right after the hold (notes/assumptions/4.md), and that the hold is a step of its own and an access that names
nothing gets its bus error at once (notes/assumptions/5.md). -/
def Obligations.StallRuleHoldsAndLifts : Prop :=
  ∀ (s : State) (a : BusAccess) (rest : List Event),
    s.cfg.legal = true → s.eng = .busy → s.held = none → s.inputs = .access a :: rest →
    (∀ t : Target, a.addressed s.cfg = some t →
      ((t = .reg .cmd ∧ a.we = true ∨ ∀ r, t ≠ .reg r) →
        step s = .next { s with inputs := rest, held := some a } ∧
        ready { s with inputs := rest, held := some a } = false ∧
        (resetNext { s with inputs := rest } = false →
          ∃ u, step { s with inputs := rest, held := some a } = .next u ∧ u.eng = .idle ∧ u.held = some a ∧
            (resetNext u = false → step u = .next (transact a { u with held := none })) ∧
            (t = .reg .cmd → (transact a { u with held := none }).cmd = a.wdata ∧
              (transact a { u with held := none }).eng = .busy))) ∧
      ((∃ r, t = .reg r ∧ ¬(r = .cmd ∧ a.we = true)) →
        step s = .next (transact a { s with inputs := rest }))) ∧
    (a.addressed s.cfg = none → step s = .next { s with inputs := rest, resp := some .busError })

/-- R190, R53: a reset drops the command and any held access, gives every register its reset value and clears every written mark, whatever
the state; the elaboration stays.  (The latch set, the response and the count of draws are not stated: notes/assumptions/8.md, 9.md.) -/
def Obligations.ResetRestoresResetValues : Prop :=
  ∀ (s : State) (rest : List Event), s.cfg.legal = true → s.inputs = .reset :: rest →
    ∃ t, step s = .next t ∧ t.cfg = s.cfg ∧ t.inputs = rest ∧ t.eng = .idle ∧ t.held = none ∧ irq t = false ∧
      statusWord t.eng t.status = 0 ∧ ctrlWord t.ctrl = 0 ∧ t.cmd = 0 ∧ t.errInfo = 0 ∧ t.xscroll = 0 ∧ t.yscroll = 0 ∧
      t.qdiv.toNat = s.cfg.qReset ∧ t.sheetDim = 0 ∧ t.sheetCur = 0 ∧ t.palCount = 0 ∧ t.lutRgb = 0 ∧
      (∀ i, memGet t.raw i = none ∧ memGet t.idx i = none ∧ memGet t.tileColor i = none ∧ memGet t.tileDb i = none ∧
        memGet t.fb i = none ∧ memGet t.rgb i = none ∧ memGet t.pal i = none)

/-- R22-R28, R31-R39: what the HOST reads from each register but PARAMS and STATUS, in every state; and, R53, what it reads from all
fifteen right after reset.  There the values of PARAMS, FB_DIM, RAW_CAPR and QDIV are those of the elaboration the model chooses for
`State.reset` (notes/assumptions/1.md). -/
def Obligations.RegistersReadAsStored : Prop :=
  (∀ s : State, s.cfg.legal = true →
    transact (readAt 0x000) s = { s with resp := some (.readData 0x544D4231) } ∧
    (∃ w : Word, transact (readAt 0x008) s = { s with resp := some (.readData w) } ∧
      w.toNat = s.cfg.fbW + s.cfg.fbH * 2 ^ 16) ∧
    (∃ w : Word, transact (readAt 0x00C) s = { s with resp := some (.readData w) } ∧ w.toNat = s.cfg.rawCap) ∧
    (∃ w : Word, transact (readAt 0x010) s = { s with resp := some (.readData w) } ∧
      w.getLsbD 0 = s.ctrl.transpEn ∧ w.getLsbD 1 = s.ctrl.irqEn ∧ w.extractLsb' 2 30 = 0) ∧
    transact (readAt 0x018) s = { s with resp := some (.readData s.cmd) } ∧
    transact (readAt 0x01C) s = { s with resp := some (.readData s.errInfo) } ∧
    transact (readAt 0x020) s = { s with resp := some (.readData s.xscroll) } ∧
    transact (readAt 0x024) s = { s with resp := some (.readData s.yscroll) } ∧
    transact (readAt 0x028) s = { s with resp := some (.readData (s.qdiv.setWidth 32)) } ∧
    transact (readAt 0x02C) s = { s with resp := some (.readData s.sheetDim) } ∧
    transact (readAt 0x030) s = { s with resp := some (.readData s.sheetCur) } ∧
    transact (readAt 0x034) s = { s with resp := some (.readData (s.palCount.setWidth 32)) } ∧
    transact (readAt 0x038) s = { s with resp := some (.readData (s.lutRgb.setWidth 32)) }) ∧
  [0x000, 0x004, 0x008, 0x00C, 0x010, 0x014, 0x018, 0x01C, 0x020, 0x024, 0x028, 0x02C, 0x030, 0x034, 0x038].map
    (fun off => (transact (readAt off) State.reset).resp) =
  [0x544D4231, 0x00006846, 0x00080008, 0x00001000, 0, 0, 0, 0, 0, 0, 64, 0, 0, 0, 0].map
    (fun v => some (BusResp.readData v))

/-! ### Registers and the bus (10_state.md section 2, 20_memory.md) -/

/-- R29, R23: the bits of the word a HOST reads from STATUS; reserved bits read 0, and the read changes nothing. -/
def Obligations.StatusReadBits : Prop :=
  ∀ s : State, ∃ w : Word, transact (readAt 0x014) s = { s with resp := some (.readData w) } ∧
    (w.getLsbD 0 = true ↔ s.eng = .busy) ∧ w.getLsbD 1 = s.status.done ∧ w.getLsbD 2 = s.status.err ∧
    w.extractLsb' 3 5 = 0 ∧ w.extractLsb' 8 4 = s.status.errcode ∧ w.extractLsb' 12 4 = 0 ∧
    w.getLsbD 16 = s.status.sheetValid ∧ w.getLsbD 17 = s.status.palValid ∧ w.extractLsb' 18 14 = 0

/-- R25: the fields of PARAMS, the two profiles' values, and that it is read-only. -/
def Obligations.ParamsReportTheElaboration : Prop :=
  (∀ s : State, s.cfg.legal = true → ∃ w : Word, transact (readAt 0x004) s = { s with resp := some (.readData w) } ∧
    w.toNat = s.cfg.mapLog2 + s.cfg.nSub * 2 ^ 4 + s.cfg.fieldW * 2 ^ 8 + s.cfg.lMax * 2 ^ 12 ∧
    ∀ v, transact (writeAt 0x004 v) s = { s with resp := some .writeDone }) ∧
  readReg .params (State.resetOf Config.p216) = 0x00006846 ∧ readReg .params (State.resetOf Config.p512) = 0x00008986

/-- R23, R28, R33-R36: a write to CTRL, XSCROLL, YSCROLL, QDIV or SHEET_DIM stores exactly the field, changes nothing else, and
reads back as written with reserved bits 0. -/
def Obligations.WritableRegistersStoreAndReadBack : Prop :=
  ∀ (s : State) (v : Word),
    transact (writeAt 0x010 v) s =
      { s with ctrl := { transpEn := v.getLsbD 0, irqEn := v.getLsbD 1 }, resp := some .writeDone } ∧
    (transact (readAt 0x010) (transact (writeAt 0x010 v) s)).resp = some (.readData (v &&& 0x3)) ∧
    transact (writeAt 0x020 v) s = { s with xscroll := v, resp := some .writeDone } ∧
    (transact (readAt 0x020) (transact (writeAt 0x020 v) s)).resp = some (.readData v) ∧
    transact (writeAt 0x024 v) s = { s with yscroll := v, resp := some .writeDone } ∧
    (transact (readAt 0x024) (transact (writeAt 0x024 v) s)).resp = some (.readData v) ∧
    transact (writeAt 0x028 v) s = { s with qdiv := v.extractLsb' 0 9, resp := some .writeDone } ∧
    (transact (readAt 0x028) (transact (writeAt 0x028 v) s)).resp = some (.readData (v &&& 0x1FF)) ∧
    transact (writeAt 0x02C v) s = { s with sheetDim := v, resp := some .writeDone } ∧
    (transact (readAt 0x02C) (transact (writeAt 0x02C v) s)).resp = some (.readData v)

/-- R23, R22: a write to a read-only register is ignored and raises no error. -/
def Obligations.ReadOnlyRegisterWritesIgnored : Prop :=
  ∀ (s : State) (v : Word) (off : Nat), off ∈ [0x000, 0x004, 0x008, 0x00C, 0x01C, 0x030, 0x034, 0x038] →
    transact (writeAt off v) s = { s with resp := some .writeDone }

/-- R74: a write to any element of a read-only window completes without error and changes nothing. -/
def Obligations.ReadOnlyWindowWritesIgnored : Prop :=
  ∀ (s : State) (v : Word) (j : Nat), s.cfg.legal = true →
    (j < s.cfg.palDepth → transact (writeAt (0x010000 + 4 * j) v) s = { s with resp := some .writeDone }) ∧
    (j < s.cfg.fbSize → transact (writeAt (0x300000 + 4 * j) v) s = { s with resp := some .writeDone }) ∧
    (j < s.cfg.rawCap → transact (writeAt (0x500000 + 4 * j) v) s = { s with resp := some .writeDone })

/-- R30: STATUS is write-one-to-clear in DONE and ERR, nothing else changes, and ERRCODE becomes 0 in no step but the
acceptance of a command (and reset, R190). -/
def Obligations.StatusWriteOneToClear : Prop :=
  (∀ (s : State) (v : Word), transact (writeAt 0x014 v) s =
    { s with
      status := { s.status with
        done := if v.getLsbD 1 then false else s.status.done
        err := if v.getLsbD 2 then false else s.status.err },
      resp := some .writeDone }) ∧
  (∀ s t : State, step s = .next t → s.status.errcode ≠ 0 → t.status.errcode = 0 →
    (s.eng = .idle ∧ t.eng = .busy) ∨ resetNext s = true)

/-- R71: an access that is not 32 bits wide, or not at a multiple of four, completes with a bus error and changes no state. -/
def Obligations.UnsupportedAccessIsBusError : Prop :=
  ∀ (s : State) (a : BusAccess), (a.size ≠ 2 ∨ a.addr.toNat % 4 ≠ 0) → transact a s = { s with resp := some .busError }

/-- R73, R181: an access to an offset that names no register and no element of a window gets a bus error and changes no
state. -/
def Obligations.UnmappedOffsetIsBusError : Prop :=
  ∀ (s : State) (a : BusAccess),
    ((0x3C ≤ a.addr.toNat ∧ a.addr.toNat < 0x010000) ∨
     (0x010000 + 4 * 2 ^ s.cfg.fieldW ≤ a.addr.toNat ∧ a.addr.toNat < 0x100000) ∨
     (0x100000 + 16 * (2 ^ s.cfg.mapLog2 * 2 ^ s.cfg.mapLog2) ≤ a.addr.toNat ∧ a.addr.toNat < 0x200000) ∨
     (0x200000 + 4 * (s.cfg.fbW * s.cfg.fbH) ≤ a.addr.toNat ∧ a.addr.toNat < 0x300000) ∨
     (0x300000 + 4 * (s.cfg.fbW * s.cfg.fbH) ≤ a.addr.toNat ∧ a.addr.toNat < 0x400000) ∨
     (0x400000 + 4 * s.cfg.rawCap ≤ a.addr.toNat ∧ a.addr.toNat < 0x500000) ∨
     (0x500000 + 4 * s.cfg.rawCap ≤ a.addr.toNat ∧ a.addr.toNat < 0x600000) ∨
     0x600000 ≤ a.addr.toNat) →
    transact a s = { s with resp := some .busError }

/-- R75, R47: a write to the FB or RAW window stores the element (FIELD_W bits, or all 32), sets its mark, leaves every other element and
all other state as it was, and a read of a written element of any single-word window returns it zero-extended. -/
def Obligations.WindowWordViews : Prop :=
  ∀ (s : State) (p : Nat) (v : Word), s.cfg.legal = true →
    (p < s.cfg.fbSize → ∃ t, transact (writeAt (0x200000 + 4 * p) v) s = t ∧
      t = { s with fb := t.fb, resp := some .writeDone } ∧
      (∃ x, memGet t.fb p = some x ∧ x.toNat = v.toNat % 2 ^ s.cfg.fieldW) ∧
      (∀ q, q ≠ p → memGet t.fb q = memGet s.fb q)) ∧
    (p < s.cfg.rawCap → ∃ t, transact (writeAt (0x400000 + 4 * p) v) s = t ∧
      t = { s with raw := t.raw, resp := some .writeDone } ∧ memGet t.raw p = some v ∧
      (∀ q, q ≠ p → memGet t.raw q = memGet s.raw q)) ∧
    (∀ x, p < s.cfg.fbSize → memGet s.fb p = some x → x.toNat < 2 ^ s.cfg.fieldW →
      transact (readAt (0x200000 + 4 * p)) s = { s with resp := some (.readData (x.setWidth 32)) }) ∧
    (∀ x, p < s.cfg.rawCap → memGet s.raw p = some x →
      transact (readAt (0x400000 + 4 * p)) s = { s with resp := some (.readData x) }) ∧
    (∀ x, p < s.cfg.palDepth → memGet s.pal p = some x →
      transact (readAt (0x010000 + 4 * p)) s = { s with resp := some (.readData (x.setWidth 32)) }) ∧
    (∀ x, p < s.cfg.fbSize → memGet s.rgb p = some x →
      transact (readAt (0x300000 + 4 * p)) s = { s with resp := some (.readData (x.setWidth 32)) }) ∧
    (∀ x, p < s.cfg.rawCap → memGet s.idx p = some x →
      transact (readAt (0x500000 + 4 * p)) s = { s with resp := some (.readData (x.setWidth 32)) })

/-- R76: a write to word k of a cell replaces every existing bit of that word, which then reads back with its other bits 0, and leaves
every other word of every cell, and all other state, as it was. -/
def Obligations.TileWindowWords : Prop :=
  ∀ (s : State) (c k : Nat) (v : Word), s.cfg.legal = true → c < s.cfg.cellCount →
    (k < 3 → ∃ t, transact (writeAt (0x100000 + 16 * c + 4 * k) v) s = t ∧
      t = { s with tileColor := t.tileColor, resp := some .writeDone } ∧
      (∃ x, writtenPart t c k = some x ∧ transact (readAt (0x100000 + 16 * c + 4 * k)) t = { t with resp := some (.readData x) } ∧
        ∀ b, b < 32 → x.getLsbD b = (v.getLsbD b && decide (32 * k + b < s.cfg.nSub * s.cfg.fieldW))) ∧
      (∀ d j, j < 3 → (d ≠ c ∨ j ≠ k) → writtenPart t d j = writtenPart s d j)) ∧
    (∃ t, transact (writeAt (0x100000 + 16 * c + 12) v) s = t ∧
      t = { s with tileDb := t.tileDb, resp := some .writeDone } ∧ memGet t.tileDb c = some (v.extractLsb' 0 2) ∧
      transact (readAt (0x100000 + 16 * c + 12)) t = { t with resp := some (.readData (v &&& 0x3)) } ∧
      (∀ d, d ≠ c → memGet t.tileDb d = memGet s.tileDb d))

/-- R47 (the form of the draw is the model's, notes/assumptions/7.md): a HOST read of an element whose written mark is clear returns a
draw, and the next draw is another; nothing else changes and the mark stays clear. -/
def Obligations.UnwrittenReadIsFreshDraw : Prop :=
  ∀ (s : State) (p : Nat), s.cfg.legal = true →
    (p < s.cfg.rawCap → memGet s.raw p = none → transact (readAt (0x400000 + 4 * p)) s =
      { s with draws := s.draws + 1, resp := some (.readData (Config.draw s.draws)) }) ∧
    (p < s.cfg.rawCap → memGet s.idx p = none → transact (readAt (0x500000 + 4 * p)) s =
      { s with draws := s.draws + 1, resp := some (.readData (Config.draw s.draws &&& 0x7)) }) ∧
    (p < s.cfg.fbSize → memGet s.fb p = none → transact (readAt (0x200000 + 4 * p)) s =
      { s with
        draws := s.draws + 1
        resp := some (.readData (Config.draw s.draws &&& BitVec.ofNat 32 (2 ^ s.cfg.fieldW - 1))) }) ∧
    (p < s.cfg.palDepth → memGet s.pal p = none → transact (readAt (0x010000 + 4 * p)) s =
      { s with draws := s.draws + 1, resp := some (.readData (Config.draw s.draws &&& 0xFFFFFF)) }) ∧
    (p < s.cfg.fbSize → memGet s.rgb p = none → transact (readAt (0x300000 + 4 * p)) s =
      { s with draws := s.draws + 1, resp := some (.readData (Config.draw s.draws &&& 0xFFFFFF)) }) ∧
    (∀ k, k < 3 → 32 * k < s.cfg.cw → p < s.cfg.cellCount → memGet s.tileColor (3 * p + k) = none →
      transact (readAt (0x100000 + 16 * p + 4 * k)) s =
        { s with draws := s.draws + 1, resp := some (.readData (Config.draw s.draws &&& s.cfg.partMask k)) }) ∧
    (p < s.cfg.cellCount → memGet s.tileDb p = none → transact (readAt (0x100000 + 16 * p + 12)) s =
      { s with draws := s.draws + 1, resp := some (.readData (Config.draw s.draws &&& 0x3)) })

/-- R72, R46: every register and every element's word has its own offset, and every word-aligned offset that names something
names exactly that. -/
def Obligations.AddressMapRoundTrip : Prop :=
  ∀ (c : Config) (t : Target), c.legal = true →
    ((match t with
      | .reg _ => True
      | .pal j => j < 2 ^ c.fieldW
      | .tile d k => d < 2 ^ c.mapLog2 * 2 ^ c.mapLog2 ∧ k < 4
      | .fb p => p < c.fbW * c.fbH
      | .rgb p => p < c.fbW * c.fbH
      | .raw i => i < c.rawCap
      | .idx i => i < c.rawCap) → target c (offsetOf t) = some t ∧ offsetOf t < 0x600000) ∧
    (∀ off, off % 4 = 0 → target c off = some t → offsetOf t = off)

/-- R177, R178: `irq` is DONE and IRQ_EN; writing 1 to DONE, clearing IRQ_EN or accepting a command lowers it, and setting IRQ_EN
while DONE = 1 raises it at once. -/
def Obligations.InterruptLineFollowsDone : Prop :=
  ∀ s : State, (irq s = true ↔ s.status.done = true ∧ s.ctrl.irqEn = true) ∧
    (∀ v : Word, v.getLsbD 1 = true → irq (transact (writeAt 0x014 v) s) = false) ∧
    (∀ v : Word, v.getLsbD 1 = false → irq (transact (writeAt 0x010 v) s) = false) ∧
    (∀ w : Word, irq (transact (writeAt 0x018 w) s) = false) ∧
    (∀ v : Word, v.getLsbD 1 = true → s.status.done = true → irq (transact (writeAt 0x010 v) s) = true)

/-- R79, R23: no HOST read has a side effect: nothing but the response (and the model's count of draws) changes. -/
def Obligations.HostReadsHaveNoSideEffect : Prop :=
  ∀ (s : State) (a : BusAccess), a.we = false →
    transact a s = { s with draws := (transact a s).draws, resp := (transact a s).resp }

/-! ### DECODE (40_sprite_sheet_decoder.md) -/

/-- R102, R105: DECODE with a fitting image and a legal Q completes: each index is its pixel's channel div Q (a draw's, below the
same bound, where the HOST never wrote the pixel), elements at and above W*H stay, SHEET_CUR and SHEET_VALID are set, nothing else changes. -/
def Obligations.DecodeQuantizesTheImage : Prop :=
  ∀ s : State, s.cfg.legal = true →
    0 < lowHalf s.latch.sdim → 0 < highHalf s.latch.sdim → lowHalf s.latch.sdim * highHalf s.latch.sdim ≤ s.cfg.rawCap →
    s.latch.q ≠ 0 → 255 / s.latch.q.toNat < s.cfg.nSub →
    ∃ t, exec .decode s = .next t ∧
      t = { s with
        idx := t.idx, draws := t.draws, sheetCur := s.latch.sdim, eng := .idle,
        status := { s.status with sheetValid := true, done := true } } ∧
      (∀ i, i < lowHalf s.latch.sdim * highHalf s.latch.sdim → ∃ v, memGet t.idx i = some v ∧
        v.toNat ≤ 255 / s.latch.q.toNat ∧
        ∀ x, memGet s.raw i = some x → v.toNat = x.toNat % 256 / s.latch.q.toNat) ∧
      (∀ i, lowHalf s.latch.sdim * highHalf s.latch.sdim ≤ i → memGet t.idx i = memGet s.idx i) ∧
      ((∀ i, i < lowHalf s.latch.sdim * highHalf s.latch.sdim → memGet s.raw i ≠ none) → t.draws = s.draws)

/-- R102, R175, R176: DECODE's two errors, DECODE_ERROR first, each with its information word and no other effect. -/
def Obligations.DecodeErrorsInOrder : Prop :=
  ∀ s : State,
    ((lowHalf s.latch.sdim = 0 ∨ highHalf s.latch.sdim = 0 ∨ s.cfg.rawCap < lowHalf s.latch.sdim * highHalf s.latch.sdim) →
      exec .decode s = .next { s with
        eng := .idle, errInfo := s.latch.sdim, status := { s.status with err := true, errcode := 2, done := true } }) ∧
    (0 < lowHalf s.latch.sdim → 0 < highHalf s.latch.sdim → lowHalf s.latch.sdim * highHalf s.latch.sdim ≤ s.cfg.rawCap →
      (s.latch.q = 0 ∨ s.cfg.nSub ≤ 255 / s.latch.q.toNat) →
      exec .decode s = .next { s with
        eng := .idle, errInfo := s.latch.q.setWidth 32, status := { s.status with err := true, errcode := 3, done := true } })

/-- R103: the legal quantization factors of each N_SUB, that a legal one keeps every index below N_SUB, and that each profile's
Q_RESET is its smallest legal one. -/
def Obligations.LegalQuantizationFactors : Prop :=
  (∀ (c : Config) (q : BitVec 9),
    (c.nSub = 4 → (badQ c q = false ↔ 64 ≤ q.toNat)) ∧ (c.nSub = 8 → (badQ c q = false ↔ 32 ≤ q.toNat)) ∧
    (badQ c q = false → ∀ ch, ch ≤ 255 → quant ch q.toNat < c.nSub)) ∧
  (∀ c ∈ [Config.p216, Config.p512], ∀ q : BitVec 9, badQ c q = false ↔ c.qReset ≤ q.toNat)

/-- R106: a channel value decoded with Q and expanded through the palette of L = LEVELS(Q) lies in the same bucket, for every Q with
L ≥ 2 and every channel value; the defaults Q = 64, L = 6 break the law at 255. -/
def Obligations.RoundTripThroughPalette : Prop :=
  (∀ q c : Nat, 1 ≤ q → q ≤ 511 → 2 ≤ levels q → c ≤ 255 → scale (quant c q) (levels q) / q = c / q) ∧
  (levels 64 = 4 ∧ quant 100 64 = 1 ∧ scale 1 4 = 85 ∧ 85 / 64 = 1) ∧
  (quant 255 64 = 3 ∧ scale 3 6 = 153 ∧ 153 / 64 ≠ 255 / 64)

/-! ### BUILD_PAL, LOOKUP and EXPAND (41_palette_lookup_engine.md) -/

/-- R111: the table of scaled channel values for each legal L, and that `scale` rises strictly there.  (Beyond the legal L it need not:
notes/assumptions/18.md.) -/
def Obligations.ChannelScalingTable : Prop :=
  (List.range 2).map (fun v => scale v 2) = [0, 255] ∧
  (List.range 3).map (fun v => scale v 3) = [0, 127, 255] ∧
  (List.range 4).map (fun v => scale v 4) = [0, 85, 170, 255] ∧
  (List.range 5).map (fun v => scale v 5) = [0, 63, 127, 191, 255] ∧
  (List.range 6).map (fun v => scale v 6) = [0, 51, 102, 153, 204, 255] ∧
  (List.range 7).map (fun v => scale v 7) = [0, 42, 85, 127, 170, 212, 255] ∧
  (List.range 8).map (fun v => scale v 8) = [0, 36, 72, 109, 145, 182, 218, 255]

/-- R112, R115: BUILD_PAL with a legal L completes: entry r·L² + g·L + b holds the scaled levels, PAL_COUNT is L³, PAL_VALID is set, the
entries at and above L³ stay, and nothing else changes. -/
def Obligations.BuildPalWritesTheCube : Prop :=
  ∀ (s : State) (l : Nat), s.cfg.legal = true → 2 ≤ l → l ≤ s.cfg.lMax →
    ∃ t, exec (.buildPal l) s = .next t ∧
      t = { s with
        pal := t.pal, palCount := t.palCount, eng := .idle, status := { s.status with palValid := true, done := true } } ∧
      t.palCount.toNat = l * l * l ∧
      (∀ r g b, r < l → g < l → b < l → ∃ e, memGet t.pal (r * l * l + g * l + b) = some e ∧
        e.toNat = (r * 255 / (l - 1)) * 2 ^ 16 + (g * 255 / (l - 1)) * 2 ^ 8 + b * 255 / (l - 1)) ∧
      (∀ j, l * l * l ≤ j → memGet t.pal j = memGet s.pal j)

/-- R115(d): the map from (r, g, b) to the palette index is a bijection onto 0..L³-1. -/
def Obligations.PaletteIndexIsBijection : Prop :=
  ∀ l j : Nat,
    (j < l * l * l → ∃ r g b, r < l ∧ g < l ∧ b < l ∧ levelIndex l r g b = j) ∧
    (∀ r g b, r < l → g < l → b < l → levelIndex l r g b < l * l * l ∧
      ∀ r' g' b', r' < l → g' < l → b' < l → levelIndex l r g b = levelIndex l r' g' b' → r = r' ∧ g = g' ∧ b = b')

/-- R112, R176, R6: BUILD_PAL with an L below 2 or above L_MAX ends with PAL_LEVELS, ERR_INFO the L, and no other effect; and L_MAX is the
largest L with L³ ≤ 2^FIELD_W. -/
def Obligations.BuildPalLevelError : Prop :=
  (∀ (s : State) (l : Nat), (l < 2 ∨ s.cfg.lMax < l) →
    exec (.buildPal l) s = .next { s with
      eng := .idle, errInfo := BitVec.ofNat 32 l, status := { s.status with err := true, errcode := 4, done := true } }) ∧
  (∀ c : Config, c.legal = true →
    c.lMax * c.lMax * c.lMax ≤ 2 ^ c.fieldW ∧ 2 ^ c.fieldW < (c.lMax + 1) * (c.lMax + 1) * (c.lMax + 1))

/-- R114: LOOKUP of an index below PAL_COUNT completes with the entry in LUT_RGB and changes nothing else.  (An entry whose written mark
is clear, which no run reaches below PAL_COUNT, gives a draw: notes/assumptions/7.md.) -/
def Obligations.LookupReturnsTheEntry : Prop :=
  ∀ (s : State) (i : Nat), s.status.palValid = true → i < s.palCount.toNat →
    (∀ e, memGet s.pal i = some e →
      exec (.lookup i) s = .next { s with lutRgb := e, eng := .idle, status := { s.status with done := true } }) ∧
    (memGet s.pal i = none →
      exec (.lookup i) s = .next { s with
        lutRgb := (Config.draw s.draws).setWidth 24, draws := s.draws + 1, eng := .idle,
        status := { s.status with done := true } })

/-- R112, R114, R115: after a BUILD_PAL with a legal L, LOOKUP of the index of levels (r, g, b) puts their scaled channels in LUT_RGB,
red highest. -/
def Obligations.LookupAfterBuildPal : Prop :=
  ∀ (s : State) (l r g b : Nat), s.cfg.legal = true → 2 ≤ l → l ≤ s.cfg.lMax → r < l → g < l → b < l →
    ∃ t u, exec (.buildPal l) s = .next t ∧ exec (.lookup (r * l * l + g * l + b)) t = .next u ∧
      u = { t with lutRgb := u.lutRgb } ∧
      u.lutRgb.toNat = (r * 255 / (l - 1)) * 2 ^ 16 + (g * 255 / (l - 1)) * 2 ^ 8 + b * 255 / (l - 1)

/-- R114, R175, R176: LOOKUP's two errors, NO_PAL first, each with its information word and no other effect. -/
def Obligations.LookupErrorsInOrder : Prop :=
  ∀ (s : State) (i : Nat),
    (s.status.palValid = false → exec (.lookup i) s = .next { s with
      eng := .idle, errInfo := 0, status := { s.status with err := true, errcode := 7, done := true } }) ∧
    (s.status.palValid = true → s.palCount.toNat ≤ i → exec (.lookup i) s = .next { s with
      eng := .idle, errInfo := BitVec.ofNat 32 i, status := { s.status with err := true, errcode := 8, done := true } })

/-- R113: EXPAND with every pixel's index in range completes: each RGB element is its pixel's palette entry, and nothing else
changes. -/
def Obligations.ExpandMapsEveryPixel : Prop :=
  ∀ s : State, s.cfg.legal = true → s.status.palValid = true →
    (∀ p, p < s.cfg.fbSize → ∃ v, memGet s.fb p = some v ∧ v.toNat < 2 ^ s.cfg.fieldW ∧ v.toNat < s.palCount.toNat ∧
      memGet s.pal v.toNat ≠ none) →
    ∃ t, exec .expand s = .next t ∧
      t = { s with rgb := t.rgb, eng := .idle, status := { s.status with done := true } } ∧
      (∀ p v, p < s.cfg.fbSize → memGet s.fb p = some v → memGet t.rgb p = memGet s.pal v.toNat) ∧
      (∀ p, s.cfg.fbSize ≤ p → memGet t.rgb p = memGet s.rgb p)

/-- R113, R175, R176: EXPAND's two errors: NO_PAL first, then PAL_RANGE with the lowest failing pixel number, no RGB element written. -/
def Obligations.ExpandErrorsInOrder : Prop :=
  ∀ s : State,
    (s.status.palValid = false → exec .expand s = .next { s with
      eng := .idle, errInfo := 0, status := { s.status with err := true, errcode := 7, done := true } }) ∧
    (∀ p, s.cfg.legal = true → s.status.palValid = true →
      (∀ q, q < s.cfg.fbSize → ∃ v, memGet s.fb q = some v ∧ v.toNat < 2 ^ s.cfg.fieldW) → p < s.cfg.fbSize →
      (∀ v, memGet s.fb p = some v → s.palCount.toNat ≤ v.toNat) →
      (∀ q v, q < p → memGet s.fb q = some v → v.toNat < s.palCount.toNat) →
      exec .expand s = .next { s with
        eng := .idle, errInfo := BitVec.ofNat 32 p, status := { s.status with err := true, errcode := 8, done := true } })

/-! ### The tile map store and RENDER (42_tile_map_store.md, 43_tilemap_rasterizer.md) -/

/-- R132: the wrapped lookup is the same at every multiple of MAP_WIDTH, also for negative coordinates; and, R130 and R131, it reads cell
`(tx mod MAP_WIDTH) + (ty mod MAP_WIDTH) * MAP_WIDTH`, whose colour word and databits it returns where they are written. -/
def Obligations.TileLookupWraps : Prop :=
  (∀ (s : State) (x y k m : Int),
    getCell x y s = getCell (x + k * (s.cfg.mapWidth : Int)) (y + m * (s.cfg.mapWidth : Int)) s) ∧
  (∀ (c : Config) (tx ty : Int),
    (cellIndex c tx ty : Int) = tx % 2 ^ c.mapLog2 + ty % 2 ^ c.mapLog2 * 2 ^ c.mapLog2) ∧
  (∀ (s : State) (tx ty : Int) (n : Nat) (color : BitVec 96) (db : BitVec 2),
    (n : Int) = tx % 2 ^ s.cfg.mapLog2 + ty % 2 ^ s.cfg.mapLog2 * 2 ^ s.cfg.mapLog2 →
    writtenColor s n = some color → memGet s.tileDb n = some db → getCell tx ty s = ((color, db), s))

/-- R133, R134: every sub-colour of a packed colour word is extracted as it was packed, with R134's examples. -/
def Obligations.PackedSubColoursExtract : Prop :=
  (∀ (c : Config) (subs : List Nat), c.legal = true → subs.length = c.nSub → (∀ x ∈ subs, x < 2 ^ c.fieldW) →
    ∀ k, k < c.nSub → (sub c (BitVec.ofNat 96 (packColor c subs)) k).toNat = subs.getD k 0) ∧
  packColor Config.p216 [5, 5, 5, 5] = 0x05050505 ∧ packColor Config.p216 [10, 20, 30, 40] = 0x281E140A ∧
  packColor Config.p216 [255, 1, 255, 2] = 0x02FF01FF ∧
  packColor Config.p512 [1, 2, 3, 4, 5, 6, 7, 8] = 0x401C0C050200C0401

/-- R140, R141, R143, R156: RENDER with a valid sheet of at least 8×8 is `renderTile` over a list of tiles (row, column): exactly those of
R141's range, row by row and left to right, so each once, and as many as R156 and R201 count.  At an aligned scroll there are
`(FB_W div 8) + 1` columns, the last at `8·(FB_W div 8)` and so wholly clipped exactly when `FB_W mod 8 = 0`; and R155's examples. -/
def Obligations.RenderVisitsTheTileRange : Prop :=
  (∀ s : State, s.status.sheetValid = true → 8 ≤ lowHalf s.sheetCur → 8 ≤ highHalf s.sheetCur →
    ∃ (tiles : List (Int × Int)) (u : State),
      u = tiles.foldl (fun t p => renderTile s.latch.xs s.latch.ys (lowHalf s.sheetCur) s.latch.transp p.1 p.2 t) s ∧
      exec .render s = .next { u with eng := .idle, status := { u.status with done := true } } ∧
      (∀ yt xt, (yt, xt) ∈ tiles ↔
        s.latch.ys / 8 ≤ yt ∧ yt ≤ (s.latch.ys + s.cfg.fbH) / 8 ∧ s.latch.xs / 8 ≤ xt ∧ xt ≤ (s.latch.xs + s.cfg.fbW) / 8) ∧
      tiles.Pairwise (fun p q => p.1 < q.1 ∨ p.1 = q.1 ∧ p.2 < q.2) ∧
      (tiles.length : Int) =
        ((s.latch.ys + s.cfg.fbH) / 8 - s.latch.ys / 8 + 1) * ((s.latch.xs + s.cfg.fbW) / 8 - s.latch.xs / 8 + 1)) ∧
  (∀ (xs : Int) (w : Nat), xs % 8 = 0 →
    (xs + w) / 8 - xs / 8 + 1 = ((w / 8 + 1 : Nat) : Int) ∧ (xs + w) / 8 * 8 - xs = ((8 * (w / 8) : Nat) : Int) ∧
    ((w : Int) ≤ (xs + w) / 8 * 8 - xs ↔ w % 8 = 0)) ∧
  asr3 (sext32 0x7FFFFFFC) = 0x0FFFFFFF ∧ asr3 (sext32 0x7FFFFFFC + 8) = 0x10000000 ∧
  cellIndex Config.p216 0x0FFFFFFF 0 = 63 ∧ cellIndex Config.p216 0x10000000 0 = 0 ∧
  asr3 (sext32 0x80000000) = -268435456 ∧ asr3 (sext32 0x80000000 + 8) = -268435455 ∧
  cellIndex Config.p216 (-268435456) 0 = 0 ∧ cellIndex Config.p216 (-268435455) 0 = 1

/-- R140, R150: RENDER with a valid sheet of at least 8×8 completes; it changes only FB (and the model's count of draws); and every pixel
whose covering cell and sheet element have been written holds the closed form's value: the sub-colour its sheet index selects, or its earlier
content where transparency skips it. -/
def Obligations.RenderClosedForm : Prop :=
  ∀ s : State, s.status.sheetValid = true → 8 ≤ lowHalf s.sheetCur → 8 ≤ highHalf s.sheetCur →
    ∃ t, exec .render s = .next t ∧
      t = { s with fb := t.fb, draws := t.draws, eng := .idle, status := { s.status with done := true } } ∧
      ∀ px py color db si, px < s.cfg.fbW → py < s.cfg.fbH →
        writtenColor s (coveringCell s px py) = some color → memGet s.tileDb (coveringCell s px py) = some db →
        memGet s.idx (coveringElement s db px py) = some si →
        memGet t.fb (px + py * s.cfg.fbW) =
          if s.latch.transp = true ∧ sub s.cfg color si.toNat = BitVec.ofNat 9 (2 ^ s.cfg.fieldW - 1) then memGet s.fb (px + py * s.cfg.fbW)
          else some (sub s.cfg color si.toNat)

/-- R140, R175, R176: RENDER's two errors, NO_SHEET first, each with its information word; FB is not written. -/
def Obligations.RenderErrorsInOrder : Prop :=
  ∀ s : State,
    (s.status.sheetValid = false → exec .render s = .next { s with
      eng := .idle, errInfo := 0, status := { s.status with err := true, errcode := 5, done := true } }) ∧
    (s.status.sheetValid = true → (lowHalf s.sheetCur < 8 ∨ highHalf s.sheetCur < 8) →
      exec .render s = .next { s with
        eng := .idle, errInfo := s.sheetCur, status := { s.status with err := true, errcode := 6, done := true } })

/-- R151: with L.TRANSP = 0 a RENDER writes every FB element, and what it leaves there does not depend on what FB held. -/
def Obligations.RenderOverwritesInFull : Prop :=
  ∀ (s : State) (fb' : Memory 9), s.status.sheetValid = true → 8 ≤ lowHalf s.sheetCur → 8 ≤ highHalf s.sheetCur →
    s.latch.transp = false →
    ∃ t u, exec .render s = .next t ∧ exec .render { s with fb := fb' } = .next u ∧
      ∀ p, p < s.cfg.fbSize → memGet t.fb p ≠ none ∧ memGet t.fb p = memGet u.fb p

/-- R154: no RENDER writes outside FB elements 0..FB_W*FB_H-1; a tile whose block lies wholly outside the buffer writes nothing (and
changes nothing at all); at scroll 0 with FB_W a multiple of 8 the over-scanned column is such a tile. -/
def Obligations.RenderStaysInsideTheBuffer : Prop :=
  (∀ s t : State, exec .render s = .next t → ∀ p, s.cfg.fbSize ≤ p → memGet t.fb p = memGet s.fb p) ∧
  (∀ (s : State) (xp yp : Int) (color : BitVec 96) (db : BitVec 2) (sw : Nat) (transp : Bool),
    (xp + 8 ≤ 0 ∨ (s.cfg.fbW : Int) ≤ xp ∨ yp + 8 ≤ 0 ∨ (s.cfg.fbH : Int) ≤ yp) → blit xp yp color db sw transp s = s) ∧
  (∀ (s : State) (yp : Int) (color : BitVec 96) (db : BitVec 2) (sw : Nat) (transp : Bool), s.cfg.fbW % 8 = 0 →
    blit (asr3 (0 + s.cfg.fbW) * 8 - 0) yp color db sw transp s = s)

/-- R153, R146 (with L.TRANSP = 0, since a skipped pixel keeps what it held): a tile wholly inside the buffer, blitted with databits 3, 1 or 2,
is the plain tile reversed in both axes, in x, or in y. -/
def Obligations.MirroringReversesTheTile : Prop :=
  ∀ (s : State) (xp yp : Nat) (color : BitVec 96) (sw x y : Nat), xp + 8 ≤ s.cfg.fbW → yp + 8 ≤ s.cfg.fbH →
    (∀ sx sy, sx < 8 → sy < 8 → memGet s.idx (sx + sy * sw) ≠ none) → x < 8 → y < 8 →
    memGet (blit xp yp color 3 sw false s).fb ((xp + x) + (yp + y) * s.cfg.fbW) =
      memGet (blit xp yp color 0 sw false s).fb ((xp + (7 - x)) + (yp + (7 - y)) * s.cfg.fbW) ∧
    memGet (blit xp yp color 1 sw false s).fb ((xp + x) + (yp + y) * s.cfg.fbW) =
      memGet (blit xp yp color 0 sw false s).fb ((xp + (7 - x)) + (yp + y) * s.cfg.fbW) ∧
    memGet (blit xp yp color 2 sw false s).fb ((xp + x) + (yp + y) * s.cfg.fbW) =
      memGet (blit xp yp color 0 sw false s).fb ((xp + x) + (yp + (7 - y)) * s.cfg.fbW)

/-- R152: a second RENDER with nothing changed leaves the same FB, in either transparency setting, where every cell that covers a
pixel and the pattern have been written. -/
def Obligations.RenderIsIdempotent : Prop :=
  ∀ s t u : State, exec .render s = .next t → exec .render t = .next u →
    s.status.sheetValid = true → 8 ≤ lowHalf s.sheetCur → 8 ≤ highHalf s.sheetCur →
    (∀ px py, px < s.cfg.fbW → py < s.cfg.fbH →
      writtenColor s (coveringCell s px py) ≠ none ∧ memGet s.tileDb (coveringCell s px py) ≠ none) →
    (∀ sx sy, sx < 8 → sy < 8 → memGet s.idx (sx + sy * lowHalf s.sheetCur) ≠ none) →
    ∀ p, p < s.cfg.fbSize → memGet u.fb p = memGet t.fb p

/-! ### All commands together (10_state.md, 60_exceptions.md, 70_reset_and_hazards.md) -/

/-- R50, R170, R182: every command, in every state, ends in a next state with ENG = IDLE and DONE = 1: never in a fault or a refusal. -/
def Obligations.EveryCommandEnds : Prop :=
  ∀ (i : Instr) (s : State), ∃ t, exec i s = .next t ∧ t.eng = .idle ∧ t.status.done = true

/-- R171, R174: a command that ends with an error leaves every memory, result register and valid flag as it found them. -/
def Obligations.CommandsAreAllOrNothing : Prop :=
  ∀ (i : Instr) (s t : State), s.status.err = false → exec i s = .next t → t.status.err = true →
    t = { s with
      eng := .idle, errInfo := t.errInfo, draws := t.draws,
      status := { s.status with err := true, errcode := t.status.errcode, done := true } }

/-- R40-R45, R33, R136: what each command may write at all.  RAW, TILE, the HOST's registers, CMD, the latches, the port and the elaboration
are written by no command; IDX and SHEET_CUR only by DECODE, PAL and PAL_COUNT only by BUILD_PAL, FB only by RENDER, RGB only by EXPAND,
LUT_RGB only by LOOKUP. -/
def Obligations.CommandsWriteOnlyTheirOwnResults : Prop :=
  ∀ (i : Instr) (s t : State), exec i s = .next t →
    t = { s with
      eng := t.eng, status := t.status, errInfo := t.errInfo, sheetCur := t.sheetCur, palCount := t.palCount,
      lutRgb := t.lutRgb, idx := t.idx, fb := t.fb, rgb := t.rgb, pal := t.pal, draws := t.draws } ∧
    (i ≠ .decode → t.idx = s.idx ∧ t.sheetCur = s.sheetCur ∧ t.status.sheetValid = s.status.sheetValid) ∧
    ((∀ l, i ≠ .buildPal l) → t.pal = s.pal ∧ t.palCount = s.palCount ∧ t.status.palValid = s.status.palValid) ∧
    (i ≠ .render → t.fb = s.fb) ∧
    (i ≠ .expand → t.rgb = s.rgb) ∧
    ((∀ j, i ≠ .lookup j) → t.lutRgb = s.lutRgb)

/-- R51: SHEET_VALID and PAL_VALID are cleared only by reset. -/
def Obligations.ValidFlagsClearedOnlyByReset : Prop :=
  ∀ s t : State, step s = .next t → resetNext s = false →
    (s.status.sheetValid = true → t.status.sheetValid = true) ∧ (s.status.palValid = true → t.status.palValid = true)

/-- R49: the result registers change only in a completion step, with ENG becoming IDLE in the same step, and only of a command that
raised no error; while BUSY the HOST reads their values from before the command. -/
def Obligations.ResultRegistersChangeOnlyAtCompletion : Prop :=
  ∀ s t : State, step s = .next t → resetNext s = false →
    (t.sheetCur ≠ s.sheetCur ∨ t.palCount ≠ s.palCount ∨ t.lutRgb ≠ s.lutRgb ∨
      t.status.sheetValid ≠ s.status.sheetValid ∨ t.status.palValid ≠ s.status.palValid) →
    s.eng = .busy ∧ t.eng = .idle ∧ t.status.done = true ∧ t.status.err = s.status.err ∧
      t.status.errcode = s.status.errcode

/-- R48, R193: a command uses the values latched at its acceptance: whatever the HOST has since written to XSCROLL, YSCROLL, CTRL, QDIV
and SHEET_DIM, it has the same effect. -/
def Obligations.CommandsUseLatchedValues : Prop :=
  ∀ (i : Instr) (s : State) (x y : Word) (c : Ctrl) (q : BitVec 9) (d : Word),
    exec i (withHostRegs x y c q d s) = mapNext (withHostRegs x y c q d) (exec i s)

/-- R200: without a reset, a BUSY ENGINE is IDLE again after at most one step more than the environment has events (the bound is the
model's scheduling, notes/assumptions/4.md). -/
def Obligations.BusyEngineCompletes : Prop :=
  ∀ s : State, s.cfg.legal = true → s.eng = .busy → (∀ e ∈ s.inputs, e ≠ .reset) →
    ∃ k t, k ≤ s.inputs.length + 1 ∧ Sys2Proof.core.run k s = .next t ∧ t.eng = .idle

/-- R6: the elaboration parameters never change. -/
def Obligations.ElaborationNeverChanges : Prop :=
  ∀ s t : State, step s = .next t → t.cfg = s.cfg

/-- R40-R45, R73, R75, R76, R154: every step keeps the memories in canonical form, with only existing elements and existing bits. -/
def Obligations.StepKeepsMemoriesOk : Prop :=
  ∀ s t : State, MemoriesOk s → step s = .next t → MemoriesOk t

/-- R29, R50, R172, R192: every step keeps STATUS, ERR_INFO, CMD and the held access in agreement with ENG. -/
def Obligations.StepKeepsStatusOk : Prop :=
  ∀ s t : State, StatusOk s → step s = .next t → StatusOk t

/-- R103, R105, R115: every step keeps a valid sheet within IDX with every index selecting an existing sub-colour, and a valid palette equal
to the cube of a legal L. -/
def Obligations.StepKeepsSheetPaletteOk : Prop :=
  ∀ s t : State, SheetPaletteOk s → step s = .next t → SheetPaletteOk t

/-- R53: the three invariants hold right after reset, for every legal elaboration. -/
def Obligations.InvariantsHoldAtReset : Prop :=
  ∀ c : Config, c.legal = true →
    MemoriesOk (State.resetOf c) ∧ StatusOk (State.resetOf c) ∧ SheetPaletteOk (State.resetOf c) ∧
    MemoriesOk State.reset ∧ StatusOk State.reset ∧ SheetPaletteOk State.reset
end

