-- ==== Sys2Proof/Laws/Memory.lean ====
section
/-! SUPPORT. The laws of the memories: a read after a write, and the canonical form. -/

namespace Sys2Proof.Machine

@[simp] theorem memGet_nil {w : Nat} (i : Nat) : memGet ([] : Memory w) i = none := rfl

/-- A read of the element just written gives the value written. -/
@[simp] theorem memGet_memSet_same {w : Nat} (m : Memory w) (i : Nat) (x : BitVec w) : memGet (memSet m i x) i = some x := by
  induction m with
  | nil => simp [memSet, memGet]
  | cons e m ih =>
    obtain ⟨k, v⟩ := e
    simp only [memSet]
    split_ifs with h1 h2
    · simp [memGet]
    · simp [memGet]
    · simp [memGet, Ne.symm h2, ih]

/-- A write leaves every other element alone. -/
theorem memGet_memSet_other {w : Nat} (m : Memory w) {i j : Nat} (x : BitVec w) (h : j ≠ i) :
    memGet (memSet m i x) j = memGet m j := by
  induction m with
  | nil => simp [memSet, memGet, Ne.symm h]
  | cons e m ih =>
    obtain ⟨k, v⟩ := e
    simp only [memSet]
    split_ifs with h1 h2
    · simp [memGet, Ne.symm h]
    · subst h2; simp [memGet, Ne.symm h]
    · simp [memGet, ih]

/-- What any element reads as after a write. -/
theorem memGet_memSet {w : Nat} (m : Memory w) (i j : Nat) (x : BitVec w) :
    memGet (memSet m i x) j = if j = i then some x else memGet m j := by
  split_ifs with h
  · rw [h, memGet_memSet_same]
  · exact memGet_memSet_other m x h

/-- A write lists the written element and otherwise only what was listed. -/
theorem mem_memSet {w : Nat} {m : Memory w} {i : Nat} {x : BitVec w} {e : Nat × BitVec w} (h : e ∈ memSet m i x) :
    e = (i, x) ∨ e ∈ m := by
  induction m with
  | nil => simpa [memSet] using h
  | cons a m ih =>
    obtain ⟨k, v⟩ := a
    simp only [memSet] at h
    split_ifs at h with h1 h2
    · simpa using h
    · rcases List.mem_cons.1 h with h | h
      · exact .inl h
      · exact .inr (List.mem_cons_of_mem _ h)
    · rcases List.mem_cons.1 h with h | h
      · exact .inr (h ▸ List.mem_cons_self)
      · exact (ih h).imp id (List.mem_cons_of_mem _)

/-- Every write keeps the canonical form. -/
theorem memSet_wf {w : Nat} {m : Memory w} (i : Nat) (x : BitVec w) (h : Memory.wf m) : Memory.wf (memSet m i x) := by
  induction m with
  | nil => simp [memSet, Memory.wf]
  | cons a m ih =>
    obtain ⟨k, v⟩ := a
    obtain ⟨hk, hm⟩ := List.pairwise_cons.1 h
    simp only [memSet]
    split_ifs with h1 h2
    · refine List.pairwise_cons.2 ⟨fun e he => ?_, h⟩
      rcases List.mem_cons.1 he with rfl | he
      · exact h1
      · exact lt_trans h1 (hk e he)
    · subst h2
      exact List.pairwise_cons.2 ⟨hk, hm⟩
    · refine List.pairwise_cons.2 ⟨fun e he => ?_, ih hm⟩
      rcases mem_memSet he with rfl | he
      · simp only; omega
      · exact hk e he

/-- A property of all listed elements survives a write whose element has it. -/
theorem forall_mem_memSet {w : Nat} {m : Memory w} {P : Nat × BitVec w → Prop} {i : Nat} {x : BitVec w}
    (h : ∀ e ∈ m, P e) (hx : P (i, x)) : ∀ e ∈ memSet m i x, P e := by
  intro e he
  rcases mem_memSet he with rfl | he
  · exact hx
  · exact h e he

/-- An element that reads as a value is listed. -/
theorem mem_of_memGet {w : Nat} {m : Memory w} {i : Nat} {x : BitVec w} (h : memGet m i = some x) : (i, x) ∈ m := by
  induction m with
  | nil => simp at h
  | cons a m ih =>
    obtain ⟨k, v⟩ := a
    simp only [memGet] at h
    split_ifs at h with h1
    · obtain rfl := Option.some.inj h; subst h1; exact List.mem_cons_self
    · exact List.mem_cons_of_mem _ (ih h)

end Sys2Proof.Machine
end

