-- ==== Sys2Proof/Laws/State.lean ====
section
/-! SUPPORT. One lemma per field per named update of the state, true by rfl, so that no proof unfolds a record update. -/

namespace Sys2Proof.Machine

/-! ### State.drawn -/

@[simp] theorem State.drawn_cfg (s : State) : s.drawn.cfg = s.cfg := rfl
@[simp] theorem State.drawn_eng (s : State) : s.drawn.eng = s.eng := rfl
@[simp] theorem State.drawn_latch (s : State) : s.drawn.latch = s.latch := rfl
@[simp] theorem State.drawn_held (s : State) : s.drawn.held = s.held := rfl
@[simp] theorem State.drawn_ctrl (s : State) : s.drawn.ctrl = s.ctrl := rfl
@[simp] theorem State.drawn_status (s : State) : s.drawn.status = s.status := rfl
@[simp] theorem State.drawn_cmd (s : State) : s.drawn.cmd = s.cmd := rfl
@[simp] theorem State.drawn_errInfo (s : State) : s.drawn.errInfo = s.errInfo := rfl
@[simp] theorem State.drawn_xscroll (s : State) : s.drawn.xscroll = s.xscroll := rfl
@[simp] theorem State.drawn_yscroll (s : State) : s.drawn.yscroll = s.yscroll := rfl
@[simp] theorem State.drawn_qdiv (s : State) : s.drawn.qdiv = s.qdiv := rfl
@[simp] theorem State.drawn_sheetDim (s : State) : s.drawn.sheetDim = s.sheetDim := rfl
@[simp] theorem State.drawn_sheetCur (s : State) : s.drawn.sheetCur = s.sheetCur := rfl
@[simp] theorem State.drawn_palCount (s : State) : s.drawn.palCount = s.palCount := rfl
@[simp] theorem State.drawn_lutRgb (s : State) : s.drawn.lutRgb = s.lutRgb := rfl
@[simp] theorem State.drawn_raw (s : State) : s.drawn.raw = s.raw := rfl
@[simp] theorem State.drawn_idx (s : State) : s.drawn.idx = s.idx := rfl
@[simp] theorem State.drawn_tileColor (s : State) : s.drawn.tileColor = s.tileColor := rfl
@[simp] theorem State.drawn_tileDb (s : State) : s.drawn.tileDb = s.tileDb := rfl
@[simp] theorem State.drawn_fb (s : State) : s.drawn.fb = s.fb := rfl
@[simp] theorem State.drawn_rgb (s : State) : s.drawn.rgb = s.rgb := rfl
@[simp] theorem State.drawn_pal (s : State) : s.drawn.pal = s.pal := rfl
@[simp] theorem State.drawn_draws (s : State) : s.drawn.draws = s.draws + 1 := rfl
@[simp] theorem State.drawn_inputs (s : State) : s.drawn.inputs = s.inputs := rfl
@[simp] theorem State.drawn_resp (s : State) : s.drawn.resp = s.resp := rfl

/-! ### writeRaw -/

@[simp] theorem writeRaw_cfg (i : Nat) (v : Word) (s : State) : (writeRaw i v s).cfg = s.cfg := rfl
@[simp] theorem writeRaw_eng (i : Nat) (v : Word) (s : State) : (writeRaw i v s).eng = s.eng := rfl
@[simp] theorem writeRaw_latch (i : Nat) (v : Word) (s : State) : (writeRaw i v s).latch = s.latch := rfl
@[simp] theorem writeRaw_held (i : Nat) (v : Word) (s : State) : (writeRaw i v s).held = s.held := rfl
@[simp] theorem writeRaw_ctrl (i : Nat) (v : Word) (s : State) : (writeRaw i v s).ctrl = s.ctrl := rfl
@[simp] theorem writeRaw_status (i : Nat) (v : Word) (s : State) : (writeRaw i v s).status = s.status := rfl
@[simp] theorem writeRaw_cmd (i : Nat) (v : Word) (s : State) : (writeRaw i v s).cmd = s.cmd := rfl
@[simp] theorem writeRaw_errInfo (i : Nat) (v : Word) (s : State) : (writeRaw i v s).errInfo = s.errInfo := rfl
@[simp] theorem writeRaw_xscroll (i : Nat) (v : Word) (s : State) : (writeRaw i v s).xscroll = s.xscroll := rfl
@[simp] theorem writeRaw_yscroll (i : Nat) (v : Word) (s : State) : (writeRaw i v s).yscroll = s.yscroll := rfl
@[simp] theorem writeRaw_qdiv (i : Nat) (v : Word) (s : State) : (writeRaw i v s).qdiv = s.qdiv := rfl
@[simp] theorem writeRaw_sheetDim (i : Nat) (v : Word) (s : State) : (writeRaw i v s).sheetDim = s.sheetDim := rfl
@[simp] theorem writeRaw_sheetCur (i : Nat) (v : Word) (s : State) : (writeRaw i v s).sheetCur = s.sheetCur := rfl
@[simp] theorem writeRaw_palCount (i : Nat) (v : Word) (s : State) : (writeRaw i v s).palCount = s.palCount := rfl
@[simp] theorem writeRaw_lutRgb (i : Nat) (v : Word) (s : State) : (writeRaw i v s).lutRgb = s.lutRgb := rfl
@[simp] theorem writeRaw_raw (i : Nat) (v : Word) (s : State) : (writeRaw i v s).raw = memSet s.raw i v := rfl
@[simp] theorem writeRaw_idx (i : Nat) (v : Word) (s : State) : (writeRaw i v s).idx = s.idx := rfl
@[simp] theorem writeRaw_tileColor (i : Nat) (v : Word) (s : State) : (writeRaw i v s).tileColor = s.tileColor := rfl
@[simp] theorem writeRaw_tileDb (i : Nat) (v : Word) (s : State) : (writeRaw i v s).tileDb = s.tileDb := rfl
@[simp] theorem writeRaw_fb (i : Nat) (v : Word) (s : State) : (writeRaw i v s).fb = s.fb := rfl
@[simp] theorem writeRaw_rgb (i : Nat) (v : Word) (s : State) : (writeRaw i v s).rgb = s.rgb := rfl
@[simp] theorem writeRaw_pal (i : Nat) (v : Word) (s : State) : (writeRaw i v s).pal = s.pal := rfl
@[simp] theorem writeRaw_draws (i : Nat) (v : Word) (s : State) : (writeRaw i v s).draws = s.draws := rfl
@[simp] theorem writeRaw_inputs (i : Nat) (v : Word) (s : State) : (writeRaw i v s).inputs = s.inputs := rfl
@[simp] theorem writeRaw_resp (i : Nat) (v : Word) (s : State) : (writeRaw i v s).resp = s.resp := rfl

/-! ### writeIdx -/

@[simp] theorem writeIdx_cfg (i : Nat) (v : BitVec 3) (s : State) : (writeIdx i v s).cfg = s.cfg := rfl
@[simp] theorem writeIdx_eng (i : Nat) (v : BitVec 3) (s : State) : (writeIdx i v s).eng = s.eng := rfl
@[simp] theorem writeIdx_latch (i : Nat) (v : BitVec 3) (s : State) : (writeIdx i v s).latch = s.latch := rfl
@[simp] theorem writeIdx_held (i : Nat) (v : BitVec 3) (s : State) : (writeIdx i v s).held = s.held := rfl
@[simp] theorem writeIdx_ctrl (i : Nat) (v : BitVec 3) (s : State) : (writeIdx i v s).ctrl = s.ctrl := rfl
@[simp] theorem writeIdx_status (i : Nat) (v : BitVec 3) (s : State) : (writeIdx i v s).status = s.status := rfl
@[simp] theorem writeIdx_cmd (i : Nat) (v : BitVec 3) (s : State) : (writeIdx i v s).cmd = s.cmd := rfl
@[simp] theorem writeIdx_errInfo (i : Nat) (v : BitVec 3) (s : State) : (writeIdx i v s).errInfo = s.errInfo := rfl
@[simp] theorem writeIdx_xscroll (i : Nat) (v : BitVec 3) (s : State) : (writeIdx i v s).xscroll = s.xscroll := rfl
@[simp] theorem writeIdx_yscroll (i : Nat) (v : BitVec 3) (s : State) : (writeIdx i v s).yscroll = s.yscroll := rfl
@[simp] theorem writeIdx_qdiv (i : Nat) (v : BitVec 3) (s : State) : (writeIdx i v s).qdiv = s.qdiv := rfl
@[simp] theorem writeIdx_sheetDim (i : Nat) (v : BitVec 3) (s : State) : (writeIdx i v s).sheetDim = s.sheetDim := rfl
@[simp] theorem writeIdx_sheetCur (i : Nat) (v : BitVec 3) (s : State) : (writeIdx i v s).sheetCur = s.sheetCur := rfl
@[simp] theorem writeIdx_palCount (i : Nat) (v : BitVec 3) (s : State) : (writeIdx i v s).palCount = s.palCount := rfl
@[simp] theorem writeIdx_lutRgb (i : Nat) (v : BitVec 3) (s : State) : (writeIdx i v s).lutRgb = s.lutRgb := rfl
@[simp] theorem writeIdx_raw (i : Nat) (v : BitVec 3) (s : State) : (writeIdx i v s).raw = s.raw := rfl
@[simp] theorem writeIdx_idx (i : Nat) (v : BitVec 3) (s : State) : (writeIdx i v s).idx = memSet s.idx i v := rfl
@[simp] theorem writeIdx_tileColor (i : Nat) (v : BitVec 3) (s : State) : (writeIdx i v s).tileColor = s.tileColor := rfl
@[simp] theorem writeIdx_tileDb (i : Nat) (v : BitVec 3) (s : State) : (writeIdx i v s).tileDb = s.tileDb := rfl
@[simp] theorem writeIdx_fb (i : Nat) (v : BitVec 3) (s : State) : (writeIdx i v s).fb = s.fb := rfl
@[simp] theorem writeIdx_rgb (i : Nat) (v : BitVec 3) (s : State) : (writeIdx i v s).rgb = s.rgb := rfl
@[simp] theorem writeIdx_pal (i : Nat) (v : BitVec 3) (s : State) : (writeIdx i v s).pal = s.pal := rfl
@[simp] theorem writeIdx_draws (i : Nat) (v : BitVec 3) (s : State) : (writeIdx i v s).draws = s.draws := rfl
@[simp] theorem writeIdx_inputs (i : Nat) (v : BitVec 3) (s : State) : (writeIdx i v s).inputs = s.inputs := rfl
@[simp] theorem writeIdx_resp (i : Nat) (v : BitVec 3) (s : State) : (writeIdx i v s).resp = s.resp := rfl

/-! ### writeFb -/

@[simp] theorem writeFb_cfg (i : Nat) (v : BitVec 9) (s : State) : (writeFb i v s).cfg = s.cfg := rfl
@[simp] theorem writeFb_eng (i : Nat) (v : BitVec 9) (s : State) : (writeFb i v s).eng = s.eng := rfl
@[simp] theorem writeFb_latch (i : Nat) (v : BitVec 9) (s : State) : (writeFb i v s).latch = s.latch := rfl
@[simp] theorem writeFb_held (i : Nat) (v : BitVec 9) (s : State) : (writeFb i v s).held = s.held := rfl
@[simp] theorem writeFb_ctrl (i : Nat) (v : BitVec 9) (s : State) : (writeFb i v s).ctrl = s.ctrl := rfl
@[simp] theorem writeFb_status (i : Nat) (v : BitVec 9) (s : State) : (writeFb i v s).status = s.status := rfl
@[simp] theorem writeFb_cmd (i : Nat) (v : BitVec 9) (s : State) : (writeFb i v s).cmd = s.cmd := rfl
@[simp] theorem writeFb_errInfo (i : Nat) (v : BitVec 9) (s : State) : (writeFb i v s).errInfo = s.errInfo := rfl
@[simp] theorem writeFb_xscroll (i : Nat) (v : BitVec 9) (s : State) : (writeFb i v s).xscroll = s.xscroll := rfl
@[simp] theorem writeFb_yscroll (i : Nat) (v : BitVec 9) (s : State) : (writeFb i v s).yscroll = s.yscroll := rfl
@[simp] theorem writeFb_qdiv (i : Nat) (v : BitVec 9) (s : State) : (writeFb i v s).qdiv = s.qdiv := rfl
@[simp] theorem writeFb_sheetDim (i : Nat) (v : BitVec 9) (s : State) : (writeFb i v s).sheetDim = s.sheetDim := rfl
@[simp] theorem writeFb_sheetCur (i : Nat) (v : BitVec 9) (s : State) : (writeFb i v s).sheetCur = s.sheetCur := rfl
@[simp] theorem writeFb_palCount (i : Nat) (v : BitVec 9) (s : State) : (writeFb i v s).palCount = s.palCount := rfl
@[simp] theorem writeFb_lutRgb (i : Nat) (v : BitVec 9) (s : State) : (writeFb i v s).lutRgb = s.lutRgb := rfl
@[simp] theorem writeFb_raw (i : Nat) (v : BitVec 9) (s : State) : (writeFb i v s).raw = s.raw := rfl
@[simp] theorem writeFb_idx (i : Nat) (v : BitVec 9) (s : State) : (writeFb i v s).idx = s.idx := rfl
@[simp] theorem writeFb_tileColor (i : Nat) (v : BitVec 9) (s : State) : (writeFb i v s).tileColor = s.tileColor := rfl
@[simp] theorem writeFb_tileDb (i : Nat) (v : BitVec 9) (s : State) : (writeFb i v s).tileDb = s.tileDb := rfl
@[simp] theorem writeFb_fb (i : Nat) (v : BitVec 9) (s : State) : (writeFb i v s).fb = memSet s.fb i (s.cfg.truncField v) := rfl
@[simp] theorem writeFb_rgb (i : Nat) (v : BitVec 9) (s : State) : (writeFb i v s).rgb = s.rgb := rfl
@[simp] theorem writeFb_pal (i : Nat) (v : BitVec 9) (s : State) : (writeFb i v s).pal = s.pal := rfl
@[simp] theorem writeFb_draws (i : Nat) (v : BitVec 9) (s : State) : (writeFb i v s).draws = s.draws := rfl
@[simp] theorem writeFb_inputs (i : Nat) (v : BitVec 9) (s : State) : (writeFb i v s).inputs = s.inputs := rfl
@[simp] theorem writeFb_resp (i : Nat) (v : BitVec 9) (s : State) : (writeFb i v s).resp = s.resp := rfl

/-! ### writeRgb -/

@[simp] theorem writeRgb_cfg (i : Nat) (v : BitVec 24) (s : State) : (writeRgb i v s).cfg = s.cfg := rfl
@[simp] theorem writeRgb_eng (i : Nat) (v : BitVec 24) (s : State) : (writeRgb i v s).eng = s.eng := rfl
@[simp] theorem writeRgb_latch (i : Nat) (v : BitVec 24) (s : State) : (writeRgb i v s).latch = s.latch := rfl
@[simp] theorem writeRgb_held (i : Nat) (v : BitVec 24) (s : State) : (writeRgb i v s).held = s.held := rfl
@[simp] theorem writeRgb_ctrl (i : Nat) (v : BitVec 24) (s : State) : (writeRgb i v s).ctrl = s.ctrl := rfl
@[simp] theorem writeRgb_status (i : Nat) (v : BitVec 24) (s : State) : (writeRgb i v s).status = s.status := rfl
@[simp] theorem writeRgb_cmd (i : Nat) (v : BitVec 24) (s : State) : (writeRgb i v s).cmd = s.cmd := rfl
@[simp] theorem writeRgb_errInfo (i : Nat) (v : BitVec 24) (s : State) : (writeRgb i v s).errInfo = s.errInfo := rfl
@[simp] theorem writeRgb_xscroll (i : Nat) (v : BitVec 24) (s : State) : (writeRgb i v s).xscroll = s.xscroll := rfl
@[simp] theorem writeRgb_yscroll (i : Nat) (v : BitVec 24) (s : State) : (writeRgb i v s).yscroll = s.yscroll := rfl
@[simp] theorem writeRgb_qdiv (i : Nat) (v : BitVec 24) (s : State) : (writeRgb i v s).qdiv = s.qdiv := rfl
@[simp] theorem writeRgb_sheetDim (i : Nat) (v : BitVec 24) (s : State) : (writeRgb i v s).sheetDim = s.sheetDim := rfl
@[simp] theorem writeRgb_sheetCur (i : Nat) (v : BitVec 24) (s : State) : (writeRgb i v s).sheetCur = s.sheetCur := rfl
@[simp] theorem writeRgb_palCount (i : Nat) (v : BitVec 24) (s : State) : (writeRgb i v s).palCount = s.palCount := rfl
@[simp] theorem writeRgb_lutRgb (i : Nat) (v : BitVec 24) (s : State) : (writeRgb i v s).lutRgb = s.lutRgb := rfl
@[simp] theorem writeRgb_raw (i : Nat) (v : BitVec 24) (s : State) : (writeRgb i v s).raw = s.raw := rfl
@[simp] theorem writeRgb_idx (i : Nat) (v : BitVec 24) (s : State) : (writeRgb i v s).idx = s.idx := rfl
@[simp] theorem writeRgb_tileColor (i : Nat) (v : BitVec 24) (s : State) : (writeRgb i v s).tileColor = s.tileColor := rfl
@[simp] theorem writeRgb_tileDb (i : Nat) (v : BitVec 24) (s : State) : (writeRgb i v s).tileDb = s.tileDb := rfl
@[simp] theorem writeRgb_fb (i : Nat) (v : BitVec 24) (s : State) : (writeRgb i v s).fb = s.fb := rfl
@[simp] theorem writeRgb_rgb (i : Nat) (v : BitVec 24) (s : State) : (writeRgb i v s).rgb = memSet s.rgb i v := rfl
@[simp] theorem writeRgb_pal (i : Nat) (v : BitVec 24) (s : State) : (writeRgb i v s).pal = s.pal := rfl
@[simp] theorem writeRgb_draws (i : Nat) (v : BitVec 24) (s : State) : (writeRgb i v s).draws = s.draws := rfl
@[simp] theorem writeRgb_inputs (i : Nat) (v : BitVec 24) (s : State) : (writeRgb i v s).inputs = s.inputs := rfl
@[simp] theorem writeRgb_resp (i : Nat) (v : BitVec 24) (s : State) : (writeRgb i v s).resp = s.resp := rfl

/-! ### writePal -/

@[simp] theorem writePal_cfg (i : Nat) (v : BitVec 24) (s : State) : (writePal i v s).cfg = s.cfg := rfl
@[simp] theorem writePal_eng (i : Nat) (v : BitVec 24) (s : State) : (writePal i v s).eng = s.eng := rfl
@[simp] theorem writePal_latch (i : Nat) (v : BitVec 24) (s : State) : (writePal i v s).latch = s.latch := rfl
@[simp] theorem writePal_held (i : Nat) (v : BitVec 24) (s : State) : (writePal i v s).held = s.held := rfl
@[simp] theorem writePal_ctrl (i : Nat) (v : BitVec 24) (s : State) : (writePal i v s).ctrl = s.ctrl := rfl
@[simp] theorem writePal_status (i : Nat) (v : BitVec 24) (s : State) : (writePal i v s).status = s.status := rfl
@[simp] theorem writePal_cmd (i : Nat) (v : BitVec 24) (s : State) : (writePal i v s).cmd = s.cmd := rfl
@[simp] theorem writePal_errInfo (i : Nat) (v : BitVec 24) (s : State) : (writePal i v s).errInfo = s.errInfo := rfl
@[simp] theorem writePal_xscroll (i : Nat) (v : BitVec 24) (s : State) : (writePal i v s).xscroll = s.xscroll := rfl
@[simp] theorem writePal_yscroll (i : Nat) (v : BitVec 24) (s : State) : (writePal i v s).yscroll = s.yscroll := rfl
@[simp] theorem writePal_qdiv (i : Nat) (v : BitVec 24) (s : State) : (writePal i v s).qdiv = s.qdiv := rfl
@[simp] theorem writePal_sheetDim (i : Nat) (v : BitVec 24) (s : State) : (writePal i v s).sheetDim = s.sheetDim := rfl
@[simp] theorem writePal_sheetCur (i : Nat) (v : BitVec 24) (s : State) : (writePal i v s).sheetCur = s.sheetCur := rfl
@[simp] theorem writePal_palCount (i : Nat) (v : BitVec 24) (s : State) : (writePal i v s).palCount = s.palCount := rfl
@[simp] theorem writePal_lutRgb (i : Nat) (v : BitVec 24) (s : State) : (writePal i v s).lutRgb = s.lutRgb := rfl
@[simp] theorem writePal_raw (i : Nat) (v : BitVec 24) (s : State) : (writePal i v s).raw = s.raw := rfl
@[simp] theorem writePal_idx (i : Nat) (v : BitVec 24) (s : State) : (writePal i v s).idx = s.idx := rfl
@[simp] theorem writePal_tileColor (i : Nat) (v : BitVec 24) (s : State) : (writePal i v s).tileColor = s.tileColor := rfl
@[simp] theorem writePal_tileDb (i : Nat) (v : BitVec 24) (s : State) : (writePal i v s).tileDb = s.tileDb := rfl
@[simp] theorem writePal_fb (i : Nat) (v : BitVec 24) (s : State) : (writePal i v s).fb = s.fb := rfl
@[simp] theorem writePal_rgb (i : Nat) (v : BitVec 24) (s : State) : (writePal i v s).rgb = s.rgb := rfl
@[simp] theorem writePal_pal (i : Nat) (v : BitVec 24) (s : State) : (writePal i v s).pal = memSet s.pal i v := rfl
@[simp] theorem writePal_draws (i : Nat) (v : BitVec 24) (s : State) : (writePal i v s).draws = s.draws := rfl
@[simp] theorem writePal_inputs (i : Nat) (v : BitVec 24) (s : State) : (writePal i v s).inputs = s.inputs := rfl
@[simp] theorem writePal_resp (i : Nat) (v : BitVec 24) (s : State) : (writePal i v s).resp = s.resp := rfl

/-! ### writeTileDb -/

@[simp] theorem writeTileDb_cfg (i : Nat) (v : Word) (s : State) : (writeTileDb i v s).cfg = s.cfg := rfl
@[simp] theorem writeTileDb_eng (i : Nat) (v : Word) (s : State) : (writeTileDb i v s).eng = s.eng := rfl
@[simp] theorem writeTileDb_latch (i : Nat) (v : Word) (s : State) : (writeTileDb i v s).latch = s.latch := rfl
@[simp] theorem writeTileDb_held (i : Nat) (v : Word) (s : State) : (writeTileDb i v s).held = s.held := rfl
@[simp] theorem writeTileDb_ctrl (i : Nat) (v : Word) (s : State) : (writeTileDb i v s).ctrl = s.ctrl := rfl
@[simp] theorem writeTileDb_status (i : Nat) (v : Word) (s : State) : (writeTileDb i v s).status = s.status := rfl
@[simp] theorem writeTileDb_cmd (i : Nat) (v : Word) (s : State) : (writeTileDb i v s).cmd = s.cmd := rfl
@[simp] theorem writeTileDb_errInfo (i : Nat) (v : Word) (s : State) : (writeTileDb i v s).errInfo = s.errInfo := rfl
@[simp] theorem writeTileDb_xscroll (i : Nat) (v : Word) (s : State) : (writeTileDb i v s).xscroll = s.xscroll := rfl
@[simp] theorem writeTileDb_yscroll (i : Nat) (v : Word) (s : State) : (writeTileDb i v s).yscroll = s.yscroll := rfl
@[simp] theorem writeTileDb_qdiv (i : Nat) (v : Word) (s : State) : (writeTileDb i v s).qdiv = s.qdiv := rfl
@[simp] theorem writeTileDb_sheetDim (i : Nat) (v : Word) (s : State) : (writeTileDb i v s).sheetDim = s.sheetDim := rfl
@[simp] theorem writeTileDb_sheetCur (i : Nat) (v : Word) (s : State) : (writeTileDb i v s).sheetCur = s.sheetCur := rfl
@[simp] theorem writeTileDb_palCount (i : Nat) (v : Word) (s : State) : (writeTileDb i v s).palCount = s.palCount := rfl
@[simp] theorem writeTileDb_lutRgb (i : Nat) (v : Word) (s : State) : (writeTileDb i v s).lutRgb = s.lutRgb := rfl
@[simp] theorem writeTileDb_raw (i : Nat) (v : Word) (s : State) : (writeTileDb i v s).raw = s.raw := rfl
@[simp] theorem writeTileDb_idx (i : Nat) (v : Word) (s : State) : (writeTileDb i v s).idx = s.idx := rfl
@[simp] theorem writeTileDb_tileColor (i : Nat) (v : Word) (s : State) : (writeTileDb i v s).tileColor = s.tileColor := rfl
@[simp] theorem writeTileDb_tileDb (i : Nat) (v : Word) (s : State) : (writeTileDb i v s).tileDb = memSet s.tileDb i (v.setWidth 2) := rfl
@[simp] theorem writeTileDb_fb (i : Nat) (v : Word) (s : State) : (writeTileDb i v s).fb = s.fb := rfl
@[simp] theorem writeTileDb_rgb (i : Nat) (v : Word) (s : State) : (writeTileDb i v s).rgb = s.rgb := rfl
@[simp] theorem writeTileDb_pal (i : Nat) (v : Word) (s : State) : (writeTileDb i v s).pal = s.pal := rfl
@[simp] theorem writeTileDb_draws (i : Nat) (v : Word) (s : State) : (writeTileDb i v s).draws = s.draws := rfl
@[simp] theorem writeTileDb_inputs (i : Nat) (v : Word) (s : State) : (writeTileDb i v s).inputs = s.inputs := rfl
@[simp] theorem writeTileDb_resp (i : Nat) (v : Word) (s : State) : (writeTileDb i v s).resp = s.resp := rfl

/-! ### accept -/

@[simp] theorem accept_cfg (w : Word) (s : State) : (accept w s).cfg = s.cfg := rfl
@[simp] theorem accept_eng (w : Word) (s : State) : (accept w s).eng = .busy := rfl
@[simp] theorem accept_latch (w : Word) (s : State) : (accept w s).latch = latchOf s w := rfl
@[simp] theorem accept_held (w : Word) (s : State) : (accept w s).held = s.held := rfl
@[simp] theorem accept_ctrl (w : Word) (s : State) : (accept w s).ctrl = s.ctrl := rfl
@[simp] theorem accept_status (w : Word) (s : State) : (accept w s).status = statusAccepted s.status := rfl
@[simp] theorem accept_cmd (w : Word) (s : State) : (accept w s).cmd = w := rfl
@[simp] theorem accept_errInfo (w : Word) (s : State) : (accept w s).errInfo = 0 := rfl
@[simp] theorem accept_xscroll (w : Word) (s : State) : (accept w s).xscroll = s.xscroll := rfl
@[simp] theorem accept_yscroll (w : Word) (s : State) : (accept w s).yscroll = s.yscroll := rfl
@[simp] theorem accept_qdiv (w : Word) (s : State) : (accept w s).qdiv = s.qdiv := rfl
@[simp] theorem accept_sheetDim (w : Word) (s : State) : (accept w s).sheetDim = s.sheetDim := rfl
@[simp] theorem accept_sheetCur (w : Word) (s : State) : (accept w s).sheetCur = s.sheetCur := rfl
@[simp] theorem accept_palCount (w : Word) (s : State) : (accept w s).palCount = s.palCount := rfl
@[simp] theorem accept_lutRgb (w : Word) (s : State) : (accept w s).lutRgb = s.lutRgb := rfl
@[simp] theorem accept_raw (w : Word) (s : State) : (accept w s).raw = s.raw := rfl
@[simp] theorem accept_idx (w : Word) (s : State) : (accept w s).idx = s.idx := rfl
@[simp] theorem accept_tileColor (w : Word) (s : State) : (accept w s).tileColor = s.tileColor := rfl
@[simp] theorem accept_tileDb (w : Word) (s : State) : (accept w s).tileDb = s.tileDb := rfl
@[simp] theorem accept_fb (w : Word) (s : State) : (accept w s).fb = s.fb := rfl
@[simp] theorem accept_rgb (w : Word) (s : State) : (accept w s).rgb = s.rgb := rfl
@[simp] theorem accept_pal (w : Word) (s : State) : (accept w s).pal = s.pal := rfl
@[simp] theorem accept_draws (w : Word) (s : State) : (accept w s).draws = s.draws := rfl
@[simp] theorem accept_inputs (w : Word) (s : State) : (accept w s).inputs = s.inputs := rfl
@[simp] theorem accept_resp (w : Word) (s : State) : (accept w s).resp = s.resp := rfl

/-! ### complete -/

@[simp] theorem complete_cfg (s : State) : (complete s).cfg = s.cfg := rfl
@[simp] theorem complete_eng (s : State) : (complete s).eng = .idle := rfl
@[simp] theorem complete_latch (s : State) : (complete s).latch = s.latch := rfl
@[simp] theorem complete_held (s : State) : (complete s).held = s.held := rfl
@[simp] theorem complete_ctrl (s : State) : (complete s).ctrl = s.ctrl := rfl
@[simp] theorem complete_status (s : State) : (complete s).status = statusCompleted s.status := rfl
@[simp] theorem complete_cmd (s : State) : (complete s).cmd = s.cmd := rfl
@[simp] theorem complete_errInfo (s : State) : (complete s).errInfo = s.errInfo := rfl
@[simp] theorem complete_xscroll (s : State) : (complete s).xscroll = s.xscroll := rfl
@[simp] theorem complete_yscroll (s : State) : (complete s).yscroll = s.yscroll := rfl
@[simp] theorem complete_qdiv (s : State) : (complete s).qdiv = s.qdiv := rfl
@[simp] theorem complete_sheetDim (s : State) : (complete s).sheetDim = s.sheetDim := rfl
@[simp] theorem complete_sheetCur (s : State) : (complete s).sheetCur = s.sheetCur := rfl
@[simp] theorem complete_palCount (s : State) : (complete s).palCount = s.palCount := rfl
@[simp] theorem complete_lutRgb (s : State) : (complete s).lutRgb = s.lutRgb := rfl
@[simp] theorem complete_raw (s : State) : (complete s).raw = s.raw := rfl
@[simp] theorem complete_idx (s : State) : (complete s).idx = s.idx := rfl
@[simp] theorem complete_tileColor (s : State) : (complete s).tileColor = s.tileColor := rfl
@[simp] theorem complete_tileDb (s : State) : (complete s).tileDb = s.tileDb := rfl
@[simp] theorem complete_fb (s : State) : (complete s).fb = s.fb := rfl
@[simp] theorem complete_rgb (s : State) : (complete s).rgb = s.rgb := rfl
@[simp] theorem complete_pal (s : State) : (complete s).pal = s.pal := rfl
@[simp] theorem complete_draws (s : State) : (complete s).draws = s.draws := rfl
@[simp] theorem complete_inputs (s : State) : (complete s).inputs = s.inputs := rfl
@[simp] theorem complete_resp (s : State) : (complete s).resp = s.resp := rfl

/-! ### raiseError -/

@[simp] theorem raiseError_cfg (e : ErrCode) (w : Word) (s : State) : (raiseError e w s).cfg = s.cfg := rfl
@[simp] theorem raiseError_eng (e : ErrCode) (w : Word) (s : State) : (raiseError e w s).eng = .idle := rfl
@[simp] theorem raiseError_latch (e : ErrCode) (w : Word) (s : State) : (raiseError e w s).latch = s.latch := rfl
@[simp] theorem raiseError_held (e : ErrCode) (w : Word) (s : State) : (raiseError e w s).held = s.held := rfl
@[simp] theorem raiseError_ctrl (e : ErrCode) (w : Word) (s : State) : (raiseError e w s).ctrl = s.ctrl := rfl
@[simp] theorem raiseError_status (e : ErrCode) (w : Word) (s : State) : (raiseError e w s).status = statusFailed e s.status := rfl
@[simp] theorem raiseError_cmd (e : ErrCode) (w : Word) (s : State) : (raiseError e w s).cmd = s.cmd := rfl
@[simp] theorem raiseError_errInfo (e : ErrCode) (w : Word) (s : State) : (raiseError e w s).errInfo = w := rfl
@[simp] theorem raiseError_xscroll (e : ErrCode) (w : Word) (s : State) : (raiseError e w s).xscroll = s.xscroll := rfl
@[simp] theorem raiseError_yscroll (e : ErrCode) (w : Word) (s : State) : (raiseError e w s).yscroll = s.yscroll := rfl
@[simp] theorem raiseError_qdiv (e : ErrCode) (w : Word) (s : State) : (raiseError e w s).qdiv = s.qdiv := rfl
@[simp] theorem raiseError_sheetDim (e : ErrCode) (w : Word) (s : State) : (raiseError e w s).sheetDim = s.sheetDim := rfl
@[simp] theorem raiseError_sheetCur (e : ErrCode) (w : Word) (s : State) : (raiseError e w s).sheetCur = s.sheetCur := rfl
@[simp] theorem raiseError_palCount (e : ErrCode) (w : Word) (s : State) : (raiseError e w s).palCount = s.palCount := rfl
@[simp] theorem raiseError_lutRgb (e : ErrCode) (w : Word) (s : State) : (raiseError e w s).lutRgb = s.lutRgb := rfl
@[simp] theorem raiseError_raw (e : ErrCode) (w : Word) (s : State) : (raiseError e w s).raw = s.raw := rfl
@[simp] theorem raiseError_idx (e : ErrCode) (w : Word) (s : State) : (raiseError e w s).idx = s.idx := rfl
@[simp] theorem raiseError_tileColor (e : ErrCode) (w : Word) (s : State) : (raiseError e w s).tileColor = s.tileColor := rfl
@[simp] theorem raiseError_tileDb (e : ErrCode) (w : Word) (s : State) : (raiseError e w s).tileDb = s.tileDb := rfl
@[simp] theorem raiseError_fb (e : ErrCode) (w : Word) (s : State) : (raiseError e w s).fb = s.fb := rfl
@[simp] theorem raiseError_rgb (e : ErrCode) (w : Word) (s : State) : (raiseError e w s).rgb = s.rgb := rfl
@[simp] theorem raiseError_pal (e : ErrCode) (w : Word) (s : State) : (raiseError e w s).pal = s.pal := rfl
@[simp] theorem raiseError_draws (e : ErrCode) (w : Word) (s : State) : (raiseError e w s).draws = s.draws := rfl
@[simp] theorem raiseError_inputs (e : ErrCode) (w : Word) (s : State) : (raiseError e w s).inputs = s.inputs := rfl
@[simp] theorem raiseError_resp (e : ErrCode) (w : Word) (s : State) : (raiseError e w s).resp = s.resp := rfl

/-! ### resetEvent -/

@[simp] theorem resetEvent_cfg (s : State) : (resetEvent s).cfg = s.cfg := rfl
@[simp] theorem resetEvent_eng (s : State) : (resetEvent s).eng = .idle := rfl
@[simp] theorem resetEvent_latch (s : State) : (resetEvent s).latch = { cmdw := 0, xs := 0, ys := 0, transp := false, q := 0, sdim := 0 } := rfl
@[simp] theorem resetEvent_held (s : State) : (resetEvent s).held = none := rfl
@[simp] theorem resetEvent_ctrl (s : State) : (resetEvent s).ctrl = { transpEn := false, irqEn := false } := rfl
@[simp] theorem resetEvent_status (s : State) : (resetEvent s).status = { done := false, err := false, errcode := 0, sheetValid := false, palValid := false } := rfl
@[simp] theorem resetEvent_cmd (s : State) : (resetEvent s).cmd = 0 := rfl
@[simp] theorem resetEvent_errInfo (s : State) : (resetEvent s).errInfo = 0 := rfl
@[simp] theorem resetEvent_xscroll (s : State) : (resetEvent s).xscroll = 0 := rfl
@[simp] theorem resetEvent_yscroll (s : State) : (resetEvent s).yscroll = 0 := rfl
@[simp] theorem resetEvent_qdiv (s : State) : (resetEvent s).qdiv = BitVec.ofNat 9 s.cfg.qReset := rfl
@[simp] theorem resetEvent_sheetDim (s : State) : (resetEvent s).sheetDim = 0 := rfl
@[simp] theorem resetEvent_sheetCur (s : State) : (resetEvent s).sheetCur = 0 := rfl
@[simp] theorem resetEvent_palCount (s : State) : (resetEvent s).palCount = 0 := rfl
@[simp] theorem resetEvent_lutRgb (s : State) : (resetEvent s).lutRgb = 0 := rfl
@[simp] theorem resetEvent_raw (s : State) : (resetEvent s).raw = [] := rfl
@[simp] theorem resetEvent_idx (s : State) : (resetEvent s).idx = [] := rfl
@[simp] theorem resetEvent_tileColor (s : State) : (resetEvent s).tileColor = [] := rfl
@[simp] theorem resetEvent_tileDb (s : State) : (resetEvent s).tileDb = [] := rfl
@[simp] theorem resetEvent_fb (s : State) : (resetEvent s).fb = [] := rfl
@[simp] theorem resetEvent_rgb (s : State) : (resetEvent s).rgb = [] := rfl
@[simp] theorem resetEvent_pal (s : State) : (resetEvent s).pal = [] := rfl
@[simp] theorem resetEvent_draws (s : State) : (resetEvent s).draws = s.draws := rfl
@[simp] theorem resetEvent_inputs (s : State) : (resetEvent s).inputs = s.inputs := rfl
@[simp] theorem resetEvent_resp (s : State) : (resetEvent s).resp = none := rfl

/-! ### installSheet -/

@[simp] theorem installSheet_cfg (s : State) : (installSheet s).cfg = s.cfg := rfl
@[simp] theorem installSheet_eng (s : State) : (installSheet s).eng = s.eng := rfl
@[simp] theorem installSheet_latch (s : State) : (installSheet s).latch = s.latch := rfl
@[simp] theorem installSheet_held (s : State) : (installSheet s).held = s.held := rfl
@[simp] theorem installSheet_ctrl (s : State) : (installSheet s).ctrl = s.ctrl := rfl
@[simp] theorem installSheet_status (s : State) : (installSheet s).status = { s.status with sheetValid := true } := rfl
@[simp] theorem installSheet_cmd (s : State) : (installSheet s).cmd = s.cmd := rfl
@[simp] theorem installSheet_errInfo (s : State) : (installSheet s).errInfo = s.errInfo := rfl
@[simp] theorem installSheet_xscroll (s : State) : (installSheet s).xscroll = s.xscroll := rfl
@[simp] theorem installSheet_yscroll (s : State) : (installSheet s).yscroll = s.yscroll := rfl
@[simp] theorem installSheet_qdiv (s : State) : (installSheet s).qdiv = s.qdiv := rfl
@[simp] theorem installSheet_sheetDim (s : State) : (installSheet s).sheetDim = s.sheetDim := rfl
@[simp] theorem installSheet_sheetCur (s : State) : (installSheet s).sheetCur = s.latch.sdim := rfl
@[simp] theorem installSheet_palCount (s : State) : (installSheet s).palCount = s.palCount := rfl
@[simp] theorem installSheet_lutRgb (s : State) : (installSheet s).lutRgb = s.lutRgb := rfl
@[simp] theorem installSheet_raw (s : State) : (installSheet s).raw = s.raw := rfl
@[simp] theorem installSheet_idx (s : State) : (installSheet s).idx = s.idx := rfl
@[simp] theorem installSheet_tileColor (s : State) : (installSheet s).tileColor = s.tileColor := rfl
@[simp] theorem installSheet_tileDb (s : State) : (installSheet s).tileDb = s.tileDb := rfl
@[simp] theorem installSheet_fb (s : State) : (installSheet s).fb = s.fb := rfl
@[simp] theorem installSheet_rgb (s : State) : (installSheet s).rgb = s.rgb := rfl
@[simp] theorem installSheet_pal (s : State) : (installSheet s).pal = s.pal := rfl
@[simp] theorem installSheet_draws (s : State) : (installSheet s).draws = s.draws := rfl
@[simp] theorem installSheet_inputs (s : State) : (installSheet s).inputs = s.inputs := rfl
@[simp] theorem installSheet_resp (s : State) : (installSheet s).resp = s.resp := rfl

/-! ### installPalette -/

@[simp] theorem installPalette_cfg (lv : Nat) (s : State) : (installPalette lv s).cfg = s.cfg := rfl
@[simp] theorem installPalette_eng (lv : Nat) (s : State) : (installPalette lv s).eng = s.eng := rfl
@[simp] theorem installPalette_latch (lv : Nat) (s : State) : (installPalette lv s).latch = s.latch := rfl
@[simp] theorem installPalette_held (lv : Nat) (s : State) : (installPalette lv s).held = s.held := rfl
@[simp] theorem installPalette_ctrl (lv : Nat) (s : State) : (installPalette lv s).ctrl = s.ctrl := rfl
@[simp] theorem installPalette_status (lv : Nat) (s : State) : (installPalette lv s).status = { s.status with palValid := true } := rfl
@[simp] theorem installPalette_cmd (lv : Nat) (s : State) : (installPalette lv s).cmd = s.cmd := rfl
@[simp] theorem installPalette_errInfo (lv : Nat) (s : State) : (installPalette lv s).errInfo = s.errInfo := rfl
@[simp] theorem installPalette_xscroll (lv : Nat) (s : State) : (installPalette lv s).xscroll = s.xscroll := rfl
@[simp] theorem installPalette_yscroll (lv : Nat) (s : State) : (installPalette lv s).yscroll = s.yscroll := rfl
@[simp] theorem installPalette_qdiv (lv : Nat) (s : State) : (installPalette lv s).qdiv = s.qdiv := rfl
@[simp] theorem installPalette_sheetDim (lv : Nat) (s : State) : (installPalette lv s).sheetDim = s.sheetDim := rfl
@[simp] theorem installPalette_sheetCur (lv : Nat) (s : State) : (installPalette lv s).sheetCur = s.sheetCur := rfl
@[simp] theorem installPalette_palCount (lv : Nat) (s : State) : (installPalette lv s).palCount = BitVec.ofNat 10 (lv * lv * lv) := rfl
@[simp] theorem installPalette_lutRgb (lv : Nat) (s : State) : (installPalette lv s).lutRgb = s.lutRgb := rfl
@[simp] theorem installPalette_raw (lv : Nat) (s : State) : (installPalette lv s).raw = s.raw := rfl
@[simp] theorem installPalette_idx (lv : Nat) (s : State) : (installPalette lv s).idx = s.idx := rfl
@[simp] theorem installPalette_tileColor (lv : Nat) (s : State) : (installPalette lv s).tileColor = s.tileColor := rfl
@[simp] theorem installPalette_tileDb (lv : Nat) (s : State) : (installPalette lv s).tileDb = s.tileDb := rfl
@[simp] theorem installPalette_fb (lv : Nat) (s : State) : (installPalette lv s).fb = s.fb := rfl
@[simp] theorem installPalette_rgb (lv : Nat) (s : State) : (installPalette lv s).rgb = s.rgb := rfl
@[simp] theorem installPalette_pal (lv : Nat) (s : State) : (installPalette lv s).pal = s.pal := rfl
@[simp] theorem installPalette_draws (lv : Nat) (s : State) : (installPalette lv s).draws = s.draws := rfl
@[simp] theorem installPalette_inputs (lv : Nat) (s : State) : (installPalette lv s).inputs = s.inputs := rfl
@[simp] theorem installPalette_resp (lv : Nat) (s : State) : (installPalette lv s).resp = s.resp := rfl

/-! ### respond -/

@[simp] theorem respond_cfg (r : BusResp) (s : State) : (respond r s).cfg = s.cfg := rfl
@[simp] theorem respond_eng (r : BusResp) (s : State) : (respond r s).eng = s.eng := rfl
@[simp] theorem respond_latch (r : BusResp) (s : State) : (respond r s).latch = s.latch := rfl
@[simp] theorem respond_held (r : BusResp) (s : State) : (respond r s).held = s.held := rfl
@[simp] theorem respond_ctrl (r : BusResp) (s : State) : (respond r s).ctrl = s.ctrl := rfl
@[simp] theorem respond_status (r : BusResp) (s : State) : (respond r s).status = s.status := rfl
@[simp] theorem respond_cmd (r : BusResp) (s : State) : (respond r s).cmd = s.cmd := rfl
@[simp] theorem respond_errInfo (r : BusResp) (s : State) : (respond r s).errInfo = s.errInfo := rfl
@[simp] theorem respond_xscroll (r : BusResp) (s : State) : (respond r s).xscroll = s.xscroll := rfl
@[simp] theorem respond_yscroll (r : BusResp) (s : State) : (respond r s).yscroll = s.yscroll := rfl
@[simp] theorem respond_qdiv (r : BusResp) (s : State) : (respond r s).qdiv = s.qdiv := rfl
@[simp] theorem respond_sheetDim (r : BusResp) (s : State) : (respond r s).sheetDim = s.sheetDim := rfl
@[simp] theorem respond_sheetCur (r : BusResp) (s : State) : (respond r s).sheetCur = s.sheetCur := rfl
@[simp] theorem respond_palCount (r : BusResp) (s : State) : (respond r s).palCount = s.palCount := rfl
@[simp] theorem respond_lutRgb (r : BusResp) (s : State) : (respond r s).lutRgb = s.lutRgb := rfl
@[simp] theorem respond_raw (r : BusResp) (s : State) : (respond r s).raw = s.raw := rfl
@[simp] theorem respond_idx (r : BusResp) (s : State) : (respond r s).idx = s.idx := rfl
@[simp] theorem respond_tileColor (r : BusResp) (s : State) : (respond r s).tileColor = s.tileColor := rfl
@[simp] theorem respond_tileDb (r : BusResp) (s : State) : (respond r s).tileDb = s.tileDb := rfl
@[simp] theorem respond_fb (r : BusResp) (s : State) : (respond r s).fb = s.fb := rfl
@[simp] theorem respond_rgb (r : BusResp) (s : State) : (respond r s).rgb = s.rgb := rfl
@[simp] theorem respond_pal (r : BusResp) (s : State) : (respond r s).pal = s.pal := rfl
@[simp] theorem respond_draws (r : BusResp) (s : State) : (respond r s).draws = s.draws := rfl
@[simp] theorem respond_inputs (r : BusResp) (s : State) : (respond r s).inputs = s.inputs := rfl
@[simp] theorem respond_resp (r : BusResp) (s : State) : (respond r s).resp = some r := rfl

/-! ### writeTilePart -/

@[simp] theorem writeTilePart_cfg (c k : Nat) (v : Word) (s : State) : (writeTilePart c k v s).cfg = s.cfg := by
  unfold writeTilePart
  split <;> rfl
@[simp] theorem writeTilePart_eng (c k : Nat) (v : Word) (s : State) : (writeTilePart c k v s).eng = s.eng := by
  unfold writeTilePart
  split <;> rfl
@[simp] theorem writeTilePart_latch (c k : Nat) (v : Word) (s : State) : (writeTilePart c k v s).latch = s.latch := by
  unfold writeTilePart
  split <;> rfl
@[simp] theorem writeTilePart_held (c k : Nat) (v : Word) (s : State) : (writeTilePart c k v s).held = s.held := by
  unfold writeTilePart
  split <;> rfl
@[simp] theorem writeTilePart_ctrl (c k : Nat) (v : Word) (s : State) : (writeTilePart c k v s).ctrl = s.ctrl := by
  unfold writeTilePart
  split <;> rfl
@[simp] theorem writeTilePart_status (c k : Nat) (v : Word) (s : State) : (writeTilePart c k v s).status = s.status := by
  unfold writeTilePart
  split <;> rfl
@[simp] theorem writeTilePart_cmd (c k : Nat) (v : Word) (s : State) : (writeTilePart c k v s).cmd = s.cmd := by
  unfold writeTilePart
  split <;> rfl
@[simp] theorem writeTilePart_errInfo (c k : Nat) (v : Word) (s : State) : (writeTilePart c k v s).errInfo = s.errInfo := by
  unfold writeTilePart
  split <;> rfl
@[simp] theorem writeTilePart_xscroll (c k : Nat) (v : Word) (s : State) : (writeTilePart c k v s).xscroll = s.xscroll := by
  unfold writeTilePart
  split <;> rfl
@[simp] theorem writeTilePart_yscroll (c k : Nat) (v : Word) (s : State) : (writeTilePart c k v s).yscroll = s.yscroll := by
  unfold writeTilePart
  split <;> rfl
@[simp] theorem writeTilePart_qdiv (c k : Nat) (v : Word) (s : State) : (writeTilePart c k v s).qdiv = s.qdiv := by
  unfold writeTilePart
  split <;> rfl
@[simp] theorem writeTilePart_sheetDim (c k : Nat) (v : Word) (s : State) : (writeTilePart c k v s).sheetDim = s.sheetDim := by
  unfold writeTilePart
  split <;> rfl
@[simp] theorem writeTilePart_sheetCur (c k : Nat) (v : Word) (s : State) : (writeTilePart c k v s).sheetCur = s.sheetCur := by
  unfold writeTilePart
  split <;> rfl
@[simp] theorem writeTilePart_palCount (c k : Nat) (v : Word) (s : State) : (writeTilePart c k v s).palCount = s.palCount := by
  unfold writeTilePart
  split <;> rfl
@[simp] theorem writeTilePart_lutRgb (c k : Nat) (v : Word) (s : State) : (writeTilePart c k v s).lutRgb = s.lutRgb := by
  unfold writeTilePart
  split <;> rfl
@[simp] theorem writeTilePart_raw (c k : Nat) (v : Word) (s : State) : (writeTilePart c k v s).raw = s.raw := by
  unfold writeTilePart
  split <;> rfl
@[simp] theorem writeTilePart_idx (c k : Nat) (v : Word) (s : State) : (writeTilePart c k v s).idx = s.idx := by
  unfold writeTilePart
  split <;> rfl
@[simp] theorem writeTilePart_tileDb (c k : Nat) (v : Word) (s : State) : (writeTilePart c k v s).tileDb = s.tileDb := by
  unfold writeTilePart
  split <;> rfl
@[simp] theorem writeTilePart_fb (c k : Nat) (v : Word) (s : State) : (writeTilePart c k v s).fb = s.fb := by
  unfold writeTilePart
  split <;> rfl
@[simp] theorem writeTilePart_rgb (c k : Nat) (v : Word) (s : State) : (writeTilePart c k v s).rgb = s.rgb := by
  unfold writeTilePart
  split <;> rfl
@[simp] theorem writeTilePart_pal (c k : Nat) (v : Word) (s : State) : (writeTilePart c k v s).pal = s.pal := by
  unfold writeTilePart
  split <;> rfl
@[simp] theorem writeTilePart_draws (c k : Nat) (v : Word) (s : State) : (writeTilePart c k v s).draws = s.draws := by
  unfold writeTilePart
  split <;> rfl
@[simp] theorem writeTilePart_inputs (c k : Nat) (v : Word) (s : State) : (writeTilePart c k v s).inputs = s.inputs := by
  unfold writeTilePart
  split <;> rfl
@[simp] theorem writeTilePart_resp (c k : Nat) (v : Word) (s : State) : (writeTilePart c k v s).resp = s.resp := by
  unfold writeTilePart
  split <;> rfl

end Sys2Proof.Machine
end

