-- ==== Sys2Proof/Laws/Ops.lean ====
section
/-! SUPPORT. What each shared operation can do, said once: loops, element reads, BLIT's and RENDER's frames. -/

namespace Sys2Proof.Machine

/-! ### Fields -/

/-- The width field of a dimension word, as arithmetic (10_state.md R36, R37). -/
theorem dimWidth_eq_mod (d : Word) : dimWidth d = d.toNat % 2 ^ 16 := by simp [dimWidth]

/-- The height field of a dimension word, as arithmetic (10_state.md R36, R37). -/
theorem dimHeight_eq_div (d : Word) : dimHeight d = d.toNat / 2 ^ 16 := by
  have := d.isLt
  simp [dimHeight, Nat.shiftRight_eq_div_pow]
  omega

/-! ### Loops -/

/-- The induction of `forUpTo`, with the loop variable. -/
theorem forUpTo_rule {σ : Type} {P : Nat → σ → Prop} {n : Nat} {f : Nat → σ → σ} {s : σ} (h0 : P 0 s)
    (hs : ∀ k t, k < n → P k t → P (k + 1) (f k t)) : P n (forUpTo n f s) := by
  induction n with
  | zero => exact h0
  | succ n ih => exact hs n _ (Nat.lt_succ_self n) (ih (fun k t hk => hs k t (Nat.lt_succ_of_lt hk)))

/-- A property every turn keeps is kept by the loop. -/
theorem forUpTo_keeps {σ : Type} {P : σ → Prop} {n : Nat} {f : Nat → σ → σ} {s : σ} (h0 : P s)
    (hs : ∀ k t, k < n → P t → P (f k t)) : P (forUpTo n f s) :=
  forUpTo_rule (P := fun _ t => P t) h0 hs

/-- The induction of `forIncl`, with the loop variable. -/
theorem forIncl_rule {σ : Type} {P : Int → σ → Prop} {a b : Int} {f : Int → σ → σ} {s : σ} (hab : a ≤ b + 1) (h0 : P a s)
    (hs : ∀ v t, a ≤ v → v ≤ b → P v t → P (v + 1) (f v t)) : P (b + 1) (forIncl a b f s) := by
  have h := forUpTo_rule (P := fun (k : Nat) t => P (a + k) t) (n := (b - a + 1).toNat)
    (f := fun k => f (a + (k : Int))) (s := s) (by simpa using h0)
    (fun k t hk ht => by
      have := hs (a + k) t (by omega) (by omega) ht
      rwa [show a + ((k + 1 : Nat) : Int) = a + k + 1 by omega])
  have e : a + ((b - a + 1).toNat : Int) = b + 1 := by omega
  rw [e] at h
  exact h

/-- A property every turn keeps is kept by the loop. -/
theorem forIncl_keeps {σ : Type} {P : σ → Prop} {a b : Int} {f : Int → σ → σ} {s : σ} (h0 : P s)
    (hs : ∀ v t, a ≤ v → v ≤ b → P t → P (f v t)) : P (forIncl a b f s) :=
  forUpTo_keeps h0 (fun k t hk ht => hs _ t (by omega) (by omega) ht)

/-! ### Element reads -/

/-- A read of a written element gives its value and changes nothing. -/
theorem readElem_written {w : Nat} {m : Memory w} {i : Nat} {v : BitVec w} (s : State) (h : memGet m i = some v) :
    readElem m i s = (v, s) := by simp [readElem, h]

/-- A read of an unwritten element is a draw, and the next draw is another. -/
theorem readElem_unwritten {w : Nat} {m : Memory w} {i : Nat} (s : State) (h : memGet m i = none) :
    readElem m i s = ((Config.draw s.draws).setWidth w, s.drawn) := by simp [readElem, h]

/-- `t` is `s` but for the count of draws. -/
def SameButDraws (s t : State) : Prop := t = { s with draws := t.draws }

theorem SameButDraws.refl (s : State) : SameButDraws s s := rfl

theorem SameButDraws.trans {s t u : State} (h1 : SameButDraws s t) (h2 : SameButDraws t u) : SameButDraws s u := by
  unfold SameButDraws at *
  rw [h2, h1]

/-- An element read changes nothing but the count of draws. -/
theorem readElem_frame {w : Nat} (m : Memory w) (i : Nat) (s : State) : SameButDraws s (readElem m i s).2 := by
  unfold readElem
  split <;> rfl

theorem readTilePart_frame (c k : Nat) (s : State) : SameButDraws s (readTilePart c k s).2 := by
  unfold readTilePart
  split_ifs
  · rfl
  · exact readElem_frame _ _ _

theorem readColor_frame (c : Nat) (s : State) : SameButDraws s (readColor c s).2 := by
  have h1 := (readTilePart_frame c 0 s).trans (readTilePart_frame c 1 _)
  have h2 := h1.trans (readTilePart_frame c 2 _)
  simpa only [readColor] using h2

theorem getCell_frame (tx ty : Int) (s : State) : SameButDraws s (getCell tx ty s).2 := by
  have h := (readColor_frame (cellIndex s.cfg tx ty) s).trans
    (readElem_frame (readColor (cellIndex s.cfg tx ty) s).2.tileDb (cellIndex s.cfg tx ty) _)
  simpa only [getCell, readTileDb] using h

theorem readFbRun_frame (n : Nat) (s : State) : SameButDraws s (readFbRun n s).2 := by
  induction n with
  | zero => rfl
  | succ n ih => exact ih.trans (readElem_frame _ _ _)

theorem readFbRun_length (n : Nat) (s : State) : (readFbRun n s).1.length = n := by
  induction n with
  | zero => rfl
  | succ n ih => simp [readFbRun, ih]

/-! ### What each command's loop can change -/

/-- `t` is `s` but for FB and the count of draws. -/
def SameButFb (s t : State) : Prop := t = { s with fb := t.fb, draws := t.draws }

theorem SameButFb.refl (s : State) : SameButFb s s := rfl

theorem SameButFb.trans {s t u : State} (h1 : SameButFb s t) (h2 : SameButFb t u) : SameButFb s u := by
  unfold SameButFb at *
  rw [h2, h1]

theorem SameButDraws.sameButFb {s t : State} (h : SameButDraws s t) : SameButFb s t := by
  unfold SameButDraws at h
  unfold SameButFb
  rw [h]

theorem writeFb_frame (p : Nat) (v : BitVec 9) (s : State) : SameButFb s (writeFb p v s) := rfl

theorem blitPixel_frame (xp yp : Int) (color : BitVec 96) (db : BitVec 2) (sw : Nat) (transp : Bool) (y x : Nat) (s : State) :
    SameButFb s (blitPixel xp yp color db sw transp y x s) := by
  have h : SameButFb s (readIdx (sheetElement db sw x y) s).2 := (readElem_frame _ _ s).sameButFb
  simp only [blitPixel]
  split
  · exact SameButFb.refl s
  · split
    · exact h
    · exact h.trans (writeFb_frame _ _ _)

theorem blit_frame (xp yp : Int) (color : BitVec 96) (db : BitVec 2) (sw : Nat) (transp : Bool) (s : State) :
    SameButFb s (blit xp yp color db sw transp s) := by
  unfold blit
  exact forUpTo_keeps (P := SameButFb s) (SameButFb.refl s) fun _ _ _ ht =>
    forUpTo_keeps (P := SameButFb s) ht fun _ _ _ hu => hu.trans (blitPixel_frame _ _ _ _ _ _ _ _ _)

theorem renderTile_frame (xs ys : Int) (sw : Nat) (transp : Bool) (yt xt : Int) (s : State) :
    SameButFb s (renderTile xs ys sw transp yt xt s) := by
  unfold renderTile
  exact (getCell_frame xt yt s).sameButFb.trans (blit_frame _ _ _ _ _ _ _)

/-- RENDER's loops change nothing but FB and the count of draws. -/
theorem renderTiles_frame (s : State) : SameButFb s (renderTiles s) := by
  unfold renderTiles
  exact forIncl_keeps (P := SameButFb s) (SameButFb.refl s) fun _ _ _ _ ht =>
    forIncl_keeps (P := SameButFb s) ht fun _ _ _ _ hu => hu.trans (renderTile_frame _ _ _ _ _ _ _)

/-- DECODE's loop changes nothing but IDX and the count of draws. -/
theorem decodeAll_frame (s : State) : decodeAll s = { s with idx := (decodeAll s).idx, draws := (decodeAll s).draws } := by
  unfold decodeAll
  refine forUpTo_keeps (P := fun t : State => t = { s with idx := t.idx, draws := t.draws }) rfl fun k t _ ht => ?_
  have h := readElem_frame t.raw k t
  unfold SameButDraws at h
  simp only [decodePixel, readRaw, writeIdx]
  rw [h, ht]

/-- BUILD_PAL's loops change nothing but PAL. -/
theorem buildEntries_frame (lv : Nat) (s : State) : buildEntries lv s = { s with pal := (buildEntries lv s).pal } := by
  unfold buildEntries
  refine forUpTo_keeps (P := fun t : State => t = { s with pal := t.pal }) rfl fun r t _ ht => ?_
  refine forUpTo_keeps (P := fun t : State => t = { s with pal := t.pal }) ht fun g t _ ht => ?_
  refine forUpTo_keeps (P := fun t : State => t = { s with pal := t.pal }) ht fun b t _ ht => ?_
  simp only [writePal]
  rw [ht]

/-- EXPAND's last loop changes nothing but RGB and the count of draws. -/
theorem expandPixels_frame (n : Nat) (vs : List (BitVec 9)) (s : State) :
    forUpTo n (expandPixel vs) s =
      { s with rgb := (forUpTo n (expandPixel vs) s).rgb, draws := (forUpTo n (expandPixel vs) s).draws } := by
  refine forUpTo_keeps (P := fun t : State => t = { s with rgb := t.rgb, draws := t.draws }) rfl fun p t _ ht => ?_
  have h := readElem_frame t.pal (vs.getD p 0).toNat t
  unfold SameButDraws at h
  simp only [expandPixel, readPal, writeRgb]
  rw [h, ht]

/-- LOOKUP's read changes nothing but LUT_RGB and the count of draws. -/
theorem lookupEntry_frame (i : Nat) (s : State) :
    lookupEntry i s = { s with lutRgb := (lookupEntry i s).lutRgb, draws := (lookupEntry i s).draws } := by
  have h := readElem_frame s.pal i s
  unfold SameButDraws at h
  simp only [lookupEntry, readPal]
  rw [h]

/-! ### Every memory write keeps the canonical form, and reset's memories have it -/

theorem writeRaw_wf {s : State} (i : Nat) (v : Word) (h : Memory.wf s.raw) : Memory.wf (writeRaw i v s).raw := memSet_wf _ _ h

theorem writeIdx_wf {s : State} (i : Nat) (v : BitVec 3) (h : Memory.wf s.idx) : Memory.wf (writeIdx i v s).idx := memSet_wf _ _ h

theorem writeFb_wf {s : State} (p : Nat) (v : BitVec 9) (h : Memory.wf s.fb) : Memory.wf (writeFb p v s).fb := memSet_wf _ _ h

theorem writeRgb_wf {s : State} (p : Nat) (v : BitVec 24) (h : Memory.wf s.rgb) : Memory.wf (writeRgb p v s).rgb := memSet_wf _ _ h

theorem writePal_wf {s : State} (j : Nat) (v : BitVec 24) (h : Memory.wf s.pal) : Memory.wf (writePal j v s).pal := memSet_wf _ _ h

theorem writeTilePart_wf {s : State} (c k : Nat) (v : Word) (h : Memory.wf s.tileColor) :
    Memory.wf (writeTilePart c k v s).tileColor := by
  unfold writeTilePart
  split
  · exact h
  · exact memSet_wf _ _ h

theorem writeTileDb_wf {s : State} (c : Nat) (v : Word) (h : Memory.wf s.tileDb) : Memory.wf (writeTileDb c v s).tileDb :=
  memSet_wf _ _ h

theorem resetOf_wf (c : Config) :
    Memory.wf (State.resetOf c).raw ∧ Memory.wf (State.resetOf c).idx ∧ Memory.wf (State.resetOf c).tileColor ∧
      Memory.wf (State.resetOf c).tileDb ∧ Memory.wf (State.resetOf c).fb ∧ Memory.wf (State.resetOf c).rgb ∧
      Memory.wf (State.resetOf c).pal :=
  ⟨.nil, .nil, .nil, .nil, .nil, .nil, .nil⟩

end Sys2Proof.Machine
end

