-- ==== Sys2Proof/Laws/Bus.lean ====
section
/-! SUPPORT. What one HOST transaction can do, said once. -/

namespace Sys2Proof.Machine

/-- A HOST read changes nothing but the count of draws. -/
theorem readTarget_frame (t : Target) (s : State) : SameButDraws s (readTarget t s).2 := by
  cases t with
  | reg r => exact SameButDraws.refl s
  | pal j => exact readElem_frame s.pal j s
  | fb p => exact readElem_frame s.fb p s
  | rgb p => exact readElem_frame s.rgb p s
  | raw i => exact readElem_frame s.raw i s
  | idx i => exact readElem_frame s.idx i s
  | tile c k =>
    simp only [readTarget]
    split
    · exact readTilePart_frame _ _ _
    · exact readElem_frame _ _ _

/-- The three things a transaction can be: a bus error, a read, a write (20_memory.md R70, R71, R73-R76). -/
inductive TransactCase (a : BusAccess) (s t : State) : Prop where
  | busError (ha : a.addressed s.cfg = none) (ht : t = respond .busError s)
  | read (g : Target) (ha : a.addressed s.cfg = some g) (hw : a.we = false)
      (ht : t = respond (.readData (readTarget g s).1) (readTarget g s).2)
  | write (g : Target) (ha : a.addressed s.cfg = some g) (hw : a.we = true)
      (ht : t = respond .writeDone (writeTarget g a.wdata s))

/-- Every transaction is one of the three. -/
theorem transact_cases (a : BusAccess) (s : State) : TransactCase a s (transact a s) := by
  cases ha : a.addressed s.cfg with
  | none => exact .busError ha (by simp [transact, ha])
  | some g =>
    cases hw : a.we with
    | true => exact .write g ha hw (by simp [transact, ha, hw])
    | false => exact .read g ha hw (by simp [transact, ha, hw])

/-- What is written through the bus names an existing element (20_memory.md R72). -/
theorem target_in_range {c : Config} {off : Nat} {g : Target} (h : target c off = some g) :
    match g with
    | .reg _ => True
    | .pal j => j < c.palDepth
    | .tile d k => d < c.cellCount ∧ k < 4
    | .fb p => p < c.fbSize
    | .rgb p => p < c.fbSize
    | .raw i => i < c.rawCap
    | .idx i => i < c.rawCap := by
  unfold target at h
  split_ifs at h
  · obtain ⟨r, -, rfl⟩ := Option.map_eq_some_iff.1 h; trivial
  all_goals
    obtain rfl := Option.some.inj h
    first | assumption | exact ⟨by assumption, by omega⟩

/-- An addressed access names what its offset names (20_memory.md R71, R72). -/
theorem addressed_eq_target {c : Config} {a : BusAccess} {g : Target} (h : a.addressed c = some g) :
    target c a.addr.toNat = some g := by
  unfold BusAccess.addressed at h
  split_ifs at h
  exact h

/-- A 32-bit access at a multiple of four addresses what its offset names (20_memory.md R71). -/
theorem addressed_word (c : Config) (we : Bool) (v : Word) {off : Nat} (h4 : off % 4 = 0) (hb : off < 2 ^ 23) :
    BusAccess.addressed c { we := we, addr := BitVec.ofNat 23 off, size := 2, wdata := v } = target c off := by
  have hx : (BitVec.ofNat 23 off).extractLsb' 0 2 = 0 := by
    apply BitVec.eq_of_toNat_eq
    simp [BitVec.extractLsb'_toNat]
    omega
  have hn : (BitVec.ofNat 23 off).toNat = off := by simpa using Nat.mod_eq_of_lt hb
  simp [BusAccess.addressed, BusAccess.supported, hx, hn]

/-- The offset of a register names it (10_state.md R22). -/
theorem target_regOffset (c : Config) (r : Reg) : target c (regOffset r) = some (.reg r) := by
  cases r <;> rfl

/-- A 32-bit access at a register's offset addresses it. -/
theorem addressed_reg (c : Config) (we : Bool) (v : Word) (r : Reg) :
    BusAccess.addressed c { we := we, addr := BitVec.ofNat 23 (regOffset r), size := 2, wdata := v } = some (.reg r) := by
  rw [addressed_word c we v (by cases r <;> rfl) (by cases r <;> decide), target_regOffset]

/-- A read of a register. -/
theorem transact_readReg (s : State) (v : Word) (r : Reg) :
    transact { we := false, addr := BitVec.ofNat 23 (regOffset r), size := 2, wdata := v } s =
      respond (.readData (readReg r s)) s := by
  rw [transact, addressed_reg]
  rfl

/-- A write of a register. -/
theorem transact_writeReg (s : State) (v : Word) (r : Reg) :
    transact { we := true, addr := BitVec.ofNat 23 (regOffset r), size := 2, wdata := v } s =
      respond .writeDone (writeReg r v s) := by
  rw [transact, addressed_reg]
  rfl

end Sys2Proof.Machine
end

