-- ==== Sys2Proof/Laws/Engine.lean ====
section
/-! SUPPORT. What one step can do, and what one command can do, each said once. -/

namespace Sys2Proof.Machine

/-! ### Commands -/

/-- How a command can end (60_exceptions.md R171, R173): with an error and nothing else changed, or with its own result. -/
inductive ExecCase : Instr → State → State → Prop where
  | error (i : Instr) (s : State) (e : ErrCode) (w : Word) (s' : State) (he : e ≠ .badCmd) (hs : SameButDraws s s') :
      ExecCase i s (raiseError e w s')
  | decode (s : State) (hi : badImage s.cfg s.latch.sdim = false) (hq : badQ s.cfg s.latch.q = false) :
      ExecCase .decode s (complete (installSheet (decodeAll s)))
  | buildPal (l : Nat) (s : State) (h2 : 2 ≤ l) (hl : l ≤ s.cfg.lMax) :
      ExecCase (.buildPal l) s (complete (installPalette l (buildEntries l s)))
  | render (s : State) (hv : s.status.sheetValid = true) (hw : 8 ≤ dimWidth s.sheetCur) (hh : 8 ≤ dimHeight s.sheetCur) :
      ExecCase .render s (complete (renderTiles s))
  | expand (s : State) (hv : s.status.palValid = true)
      (hr : firstOutOfRange s.palCount (readFbRun s.cfg.fbSize s).1 = none) :
      ExecCase .expand s
        (complete (forUpTo s.cfg.fbSize (expandPixel (readFbRun s.cfg.fbSize s).1) (readFbRun s.cfg.fbSize s).2))
  | lookup (j : Nat) (s : State) (hv : s.status.palValid = true) (hj : j < s.palCount.toNat) :
      ExecCase (.lookup j) s (complete (lookupEntry j s))

/-- Every command ends in one of these ways. -/
theorem exec_cases (i : Instr) (s : State) : ∃ t, exec i s = .next t ∧ ExecCase i s t := by
  cases i with
  | decode =>
    simp only [exec, execDecode]
    cases h1 : badImage s.cfg s.latch.sdim with
    | true => exact ⟨_, by rw [if_pos rfl], .error _ _ _ _ _ (by decide) (SameButDraws.refl s)⟩
    | false =>
      cases h2 : badQ s.cfg s.latch.q with
      | true => exact ⟨_, by rw [if_neg (by decide), if_pos rfl], .error _ _ _ _ _ (by decide) (SameButDraws.refl s)⟩
      | false => exact ⟨_, by rw [if_neg (by decide), if_neg (by decide)], .decode s h1 h2⟩
  | buildPal l =>
    simp only [exec, execBuildPal]
    split_ifs with h
    · exact ⟨_, rfl, .error _ _ _ _ _ (by decide) (SameButDraws.refl s)⟩
    · exact ⟨_, rfl, .buildPal l s (by omega) (by omega)⟩
  | render =>
    simp only [exec, execRender]
    split_ifs with h1 h2
    · exact ⟨_, rfl, .error _ _ _ _ _ (by decide) (SameButDraws.refl s)⟩
    · exact ⟨_, rfl, .error _ _ _ _ _ (by decide) (SameButDraws.refl s)⟩
    · exact ⟨_, rfl, .render s (by simpa using h1) (by omega) (by omega)⟩
  | expand =>
    simp only [exec, execExpand]
    split_ifs with h1
    · exact ⟨_, rfl, .error _ _ _ _ _ (by decide) (SameButDraws.refl s)⟩
    · cases h2 : firstOutOfRange s.palCount (readFbRun s.cfg.fbSize s).1 with
      | some p => exact ⟨_, rfl, .error _ _ _ _ _ (by decide) (readFbRun_frame _ s)⟩
      | none => exact ⟨_, rfl, .expand s (by simpa using h1) h2⟩
  | lookup j =>
    simp only [exec, execLookup]
    split_ifs with h1 h2
    · exact ⟨_, rfl, .error _ _ _ _ _ (by decide) (SameButDraws.refl s)⟩
    · exact ⟨_, rfl, .error _ _ _ _ _ (by decide) (SameButDraws.refl s)⟩
    · exact ⟨_, rfl, .lookup j s (by simpa using h1) (by omega)⟩

/-- The inversion of `exec`. -/
theorem exec_next_cases {i : Instr} {s t : State} (h : exec i s = .next t) : ExecCase i s t := by
  obtain ⟨u, hu, hc⟩ := exec_cases i s
  rw [hu] at h
  obtain rfl := Host.Outcome.next.inj h
  exact hc

/-! ### Steps -/

/-- What a step can be (00_scope.md R9): a reset, a HOST access performed, held or lifted, a completion, or nothing to do. -/
inductive StepCase (s t : State) : Prop where
  | reset (rest : List Event) (hi : s.inputs = .reset :: rest) (ht : t = resetEvent { s with inputs := rest })
  | lift (a : BusAccess) (hh : s.held = some a) (he : s.eng = .idle) (ht : t = transact a { s with held := none })
  | bus (a : BusAccess) (rest : List Event) (hi : s.inputs = .access a :: rest) (hh : s.held = none)
      (hw : mustWait a s = false) (ht : t = transact a { s with inputs := rest })
  | hold (a : BusAccess) (rest : List Event) (hi : s.inputs = .access a :: rest) (hh : s.held = none)
      (hw : mustWait a s = true) (ht : t = { s with inputs := rest, held := some a })
  | command (i : Instr) (he : s.eng = .busy) (hd : decode s.latch.cmdw = .ok i)
      (hx : exec i { s with inputs := afterTurn s.inputs } = .next t)
  | badcmd (e : DecodeError) (he : s.eng = .busy) (hd : decode s.latch.cmdw = .error e)
      (ht : t = raiseError .badCmd s.latch.cmdw { s with inputs := afterTurn s.inputs })
  | wait (he : s.eng = .idle) (hh : s.held = none) (ht : t = { s with inputs := afterTurn s.inputs })

theorem engineTurn_busy_cases {s : State} (he : s.eng = .busy) : ∃ t, engineTurn s = .next t ∧ StepCase s t := by
  unfold engineTurn
  rw [if_pos he]
  unfold completionStep
  cases hd : decode s.latch.cmdw with
  | error e => exact ⟨_, rfl, .badcmd e he hd rfl⟩
  | ok i =>
    obtain ⟨t, ht, -⟩ := exec_cases i { s with inputs := afterTurn s.inputs }
    exact ⟨t, ht, .command i he hd ht⟩

theorem engineTurn_cases {s : State} (hh : s.held = none) : ∃ t, engineTurn s = .next t ∧ StepCase s t := by
  cases he : s.eng with
  | busy => exact engineTurn_busy_cases he
  | idle => exact ⟨_, by rw [engineTurn, if_neg (by simp [he])], .wait he hh rfl⟩

/-- Every step of a legal elaboration is one of these. -/
theorem nextStep_cases (s : State) : ∃ t, nextStep s = .next t ∧ StepCase s t := by
  unfold nextStep
  split
  · rename_i rest h
    exact ⟨_, rfl, .reset rest h rfl⟩
  · rename_i a hh _
    split_ifs with he
    · exact engineTurn_busy_cases he
    · exact ⟨_, rfl, .lift a hh (by cases h : s.eng <;> simp_all) rfl⟩
  · rename_i a rest hi hh
    cases hw : mustWait a s with
    | true =>
      refine ⟨_, rfl, .hold a rest hi hh hw ?_⟩
      have : mustWait a { s with inputs := rest } = true := hw
      simp [present, this]
    | false =>
      refine ⟨_, rfl, .bus a rest hi hh hw ?_⟩
      have : mustWait a { s with inputs := rest } = false := hw
      simp [present, this]
  · rename_i hh
    exact engineTurn_cases hh
  · rename_i hh
    exact engineTurn_cases hh

/-- The inversion of `step`. -/
theorem step_next_cases {s t : State} (h : step s = .next t) : s.cfg.legal = true ∧ StepCase s t := by
  unfold step at h
  split_ifs at h with hl
  obtain ⟨u, hu, hc⟩ := nextStep_cases s
  rw [hu] at h
  obtain rfl := Host.Outcome.next.inj h
  exact ⟨hl, hc⟩

end Sys2Proof.Machine
end

