-- ==== Sys2Proof/Laws/PerInstr.lean ====
section
/-! SUPPORT. The per-instruction family EncodingShape: what the word of a well-formed command looks like
(30_encoding.md R91-R93). -/

namespace Sys2Proof.Laws.EncodingShape

/-- The word of a well-formed command carries its row's OP in bits 7:0 and matches that row alone (R91, R93). -/
def Statement (i : Instr) : Prop :=
  i.wellFormed = true →
    ∃ r ∈ opcodeTable, opField (encode i) = r.op ∧ ∀ q ∈ opcodeTable, (q.accepts (encode i) = true ↔ q = r)

theorem decode : Statement .decode := fun _ => ⟨rowDecode, by decide, by decide, by decide⟩

theorem buildPal (lvl : Nat) : Statement (.buildPal lvl) := by
  intro h
  have hl : lvl < 16 := by simpa [Instr.wellFormed] using h
  refine ⟨rowBuildPal, by decide, ?_⟩
  have all : ∀ l : Fin 16, opField (encode (.buildPal l)) = rowBuildPal.op ∧
      ∀ q ∈ opcodeTable, (q.accepts (encode (.buildPal l)) = true ↔ q = rowBuildPal) := by decide +kernel
  exact all ⟨lvl, hl⟩

theorem render : Statement .render := fun _ => ⟨rowRender, by decide, by decide, by decide⟩

theorem expand : Statement .expand := fun _ => ⟨rowExpand, by decide, by decide, by decide⟩

theorem lookup (idx : Nat) : Statement (.lookup idx) := by
  intro h
  have hi : idx < 512 := by simpa [Instr.wellFormed] using h
  refine ⟨rowLookup, by decide, ?_⟩
  have all : ∀ j : Fin 512, opField (encode (.lookup j)) = rowLookup.op ∧
      ∀ q ∈ opcodeTable, (q.accepts (encode (.lookup j)) = true ↔ q = rowLookup) := by decide +kernel
  exact all ⟨idx, hi⟩

end Sys2Proof.Laws.EncodingShape
end

