-- ==== Sys2Proof/Laws/Raster.lean ====
section
/-! SUPPORT. What BLIT does to one FB element (43_tilemap_rasterizer.md R144-R149). -/

namespace Sys2Proof.Machine

/-- Two view pixels inside the buffer with one element index are one pixel (R149). -/
theorem pixel_index_inj {w px py qx qy : Nat} (hp : px < w) (hq : qx < w) (h : px + py * w = qx + qy * w) : px = qx ∧ py = qy := by
  have h1 := congrArg (· % w) h
  have h2 := congrArg (· / w) h
  simp only [Nat.add_mul_mod_self_right, Nat.mod_eq_of_lt hp, Nat.mod_eq_of_lt hq] at h1
  simp only [Nat.add_mul_div_right _ _ (Nat.zero_lt_of_lt hp), Nat.div_eq_of_lt hp, Nat.div_eq_of_lt hq, Nat.zero_add] at h2
  exact ⟨h1, h2⟩

/-- A view position that is not clipped is a pixel of the buffer (R145). -/
theorem clipped_false_iff {c : Config} {px py : Int} :
    clipped c px py = false ↔ (0 ≤ px ∧ px < c.fbW) ∧ (0 ≤ py ∧ py < c.fbH) := by
  simp only [clipped, Bool.or_eq_false_iff, decide_eq_false_iff_not]
  omega

/-- FIELD_W bits survive being stored in FIELD_W bits. -/
theorem truncField_truncField (c : Config) (v : BitVec 9) : c.truncField (c.truncField v) = c.truncField v := by
  simp [Config.truncField, BitVec.and_assoc]

/-- An extracted sub-colour is stored whole (R133, R149). -/
theorem truncField_sub (c : Config) (color : BitVec 96) (si : Nat) : c.truncField (sub c color si) = sub c color si :=
  truncField_truncField c _

/-- What RENDER leaves in an element that a visit reaches (R148, R149). -/
def blitted (cfg : Config) (transp : Bool) (c : BitVec 9) (old : Option (BitVec 9)) : Option (BitVec 9) :=
  if skipsWrite cfg transp c then old else some c

/-- A turn whose pixel is another one, or clipped, leaves the element of pixel (px, py) alone (R145, R149). -/
theorem blitPixel_get_other {xp yp : Int} {color : BitVec 96} {db : BitVec 2} {sw : Nat} {transp : Bool} {y x : Nat} {s : State}
    {px py : Nat} (hx : px < s.cfg.fbW) (h : ¬((x : Int) + xp = px ∧ (y : Int) + yp = py)) :
    memGet (blitPixel xp yp color db sw transp y x s).fb (px + py * s.cfg.fbW) = memGet s.fb (px + py * s.cfg.fbW) := by
  have hr : SameButDraws s (readIdx (sheetElement db sw x y) s).2 := readElem_frame _ _ _
  have hc := congrArg State.cfg hr
  have hf := congrArg State.fb hr
  simp only at hc hf
  simp only [blitPixel]
  cases hcl : clipped s.cfg (x + xp) (y + yp) with
  | true => simp
  | false =>
    obtain ⟨⟨h1, h2⟩, h3, h4⟩ := clipped_false_iff.1 hcl
    rw [if_neg (by decide)]
    split
    · rw [hf]
    · rw [writeFb_fb, hf, memGet_memSet_other]
      intro he
      obtain ⟨e1, e2⟩ := pixel_index_inj hx (by omega) he
      exact h ⟨by omega, by omega⟩

/-- The turn that reaches pixel (px, py) (R145-R149). -/
theorem blitPixel_get_same {xp yp : Int} {color : BitVec 96} {db : BitVec 2} {sw : Nat} {transp : Bool} {y x : Nat} {s : State}
    {px py : Nat} {si : BitVec 3} (hx : px < s.cfg.fbW) (hy : py < s.cfg.fbH) (e1 : (x : Int) + xp = px) (e2 : (y : Int) + yp = py)
    (hi : memGet s.idx (sheetElement db sw x y) = some si) :
    memGet (blitPixel xp yp color db sw transp y x s).fb (px + py * s.cfg.fbW) =
      blitted s.cfg transp (sub s.cfg color si.toNat) (memGet s.fb (px + py * s.cfg.fbW)) := by
  have hr : readIdx (sheetElement db sw x y) s = (si, s) := readElem_written s hi
  have hcl : clipped s.cfg (x + xp) (y + yp) = false := clipped_false_iff.2 ⟨by omega, by omega⟩
  simp only [blitPixel, hcl, hr, blitted]
  rw [if_neg (by decide)]
  split
  · rfl
  · rw [writeFb_fb, e1, e2, truncField_sub]
    simp

/-- A whole tile: the element of pixel (px, py) takes the blitted value when the tile covers the pixel, and keeps its
content otherwise. -/
theorem blit_get {xp yp : Int} {color : BitVec 96} {db : BitVec 2} {sw : Nat} {transp : Bool} {s : State} {px py : Nat}
    (hx : px < s.cfg.fbW) (hy : py < s.cfg.fbH) :
    (∀ (x y : Nat) (si : BitVec 3), x < 8 → y < 8 → (x : Int) + xp = px → (y : Int) + yp = py →
      memGet s.idx (sheetElement db sw x y) = some si →
      memGet (blit xp yp color db sw transp s).fb (px + py * s.cfg.fbW) =
        blitted s.cfg transp (sub s.cfg color si.toNat) (memGet s.fb (px + py * s.cfg.fbW))) ∧
    ((∀ x y : Nat, x < 8 → y < 8 → ¬((x : Int) + xp = px ∧ (y : Int) + yp = py)) →
      memGet (blit xp yp color db sw transp s).fb (px + py * s.cfg.fbW) = memGet s.fb (px + py * s.cfg.fbW)) := by
  constructor
  · intro x0 y0 si hx0 hy0 e1 e2 hi
    let val := blitted s.cfg transp (sub s.cfg color si.toNat) (memGet s.fb (px + py * s.cfg.fbW))
    let P (done : Prop) (t : State) : Prop := SameButFb s t ∧
      (done → memGet t.fb (px + py * s.cfg.fbW) = val) ∧ (¬done → memGet t.fb (px + py * s.cfg.fbW) = memGet s.fb (px + py * s.cfg.fbW))
    have step : ∀ (t : State) (y x : Nat) (d : Prop), (d → ¬(y = y0 ∧ x = x0)) → P d t →
        P (d ∨ (y = y0 ∧ x = x0)) (blitPixel xp yp color db sw transp y x t) := by
      intro t y x d hd ⟨hf, h1, h2⟩
      have hfr := blitPixel_frame xp yp color db sw transp y x t
      refine ⟨hf.trans hfr, ?_, ?_⟩
      all_goals
        have hcfg : t.cfg = s.cfg := by rw [hf]
        have hidx : t.idx = s.idx := by rw [hf]
      · rintro (h | ⟨rfl, rfl⟩)
        · have := blitPixel_get_other (xp := xp) (yp := yp) (color := color) (db := db) (sw := sw) (transp := transp)
            (y := y) (x := x) (s := t) (px := px) (py := py) (by rwa [hcfg]) (by have := hd h; omega)
          rw [hcfg] at this
          rw [this, h1 h]
        · have hnd : ¬d := fun h => hd h ⟨rfl, rfl⟩
          have := blitPixel_get_same (color := color) (transp := transp) (s := t) (by rwa [hcfg]) (by rwa [hcfg]) e1 e2
            (by rwa [hidx])
          rw [hcfg] at this
          rw [this, h2 hnd]
      · intro hn
        have hnd : ¬d := fun h => hn (.inl h)
        have := blitPixel_get_other (xp := xp) (yp := yp) (color := color) (db := db) (sw := sw) (transp := transp)
          (y := y) (x := x) (s := t) (px := px) (py := py) (by rwa [hcfg]) (by
            intro h; exact hn (.inr ⟨by omega, by omega⟩))
        rw [hcfg] at this
        rw [this, h2 hnd]
    have main : P (y0 < 8) (blit xp yp color db sw transp s) := by
      refine forUpTo_rule (P := fun y t => P (y0 < y) t) ⟨SameButFb.refl s, fun h => absurd h (by omega), fun _ => rfl⟩ ?_
      intro y t hy' ht
      have inner := forUpTo_rule (P := fun x u => P (y0 < y ∨ (y = y0 ∧ x0 < x)) u) (n := 8)
        (f := fun x => blitPixel xp yp color db sw transp y x) (s := t)
        (by simpa using ht)
        (fun x u _ hu => by
          have := step u y x _ (by omega) hu
          have e : ((y0 < y ∨ y = y0 ∧ x0 < x) ∨ y = y0 ∧ x = x0) = (y0 < y ∨ y = y0 ∧ x0 < x + 1) := by
            apply propext; omega
          rwa [e] at this)
      have e : (y0 < y ∨ y = y0 ∧ x0 < 8) = (y0 < y + 1) := by apply propext; omega
      rwa [e] at inner
    exact main.2.1 hy0
  · intro h
    have main : SameButFb s (blit xp yp color db sw transp s) ∧
        memGet (blit xp yp color db sw transp s).fb (px + py * s.cfg.fbW) = memGet s.fb (px + py * s.cfg.fbW) := by
      let P (t : State) : Prop := SameButFb s t ∧ memGet t.fb (px + py * s.cfg.fbW) = memGet s.fb (px + py * s.cfg.fbW)
      refine forUpTo_keeps (P := P) ⟨SameButFb.refl s, rfl⟩ fun y t hy' ht => ?_
      refine forUpTo_keeps (P := P) ht fun x u hx' ⟨hf, hu⟩ => ?_
      have hcfg : u.cfg = s.cfg := by rw [hf]
      refine ⟨hf.trans (blitPixel_frame _ _ _ _ _ _ _ _ _), ?_⟩
      have := blitPixel_get_other (xp := xp) (yp := yp) (color := color) (db := db) (sw := sw) (transp := transp)
        (y := y) (x := x) (s := u) (px := px) (py := py) (by rwa [hcfg]) (h x y hx' hy')
      rw [hcfg] at this
      rw [this, hu]
    exact main.2

/-- No tile writes an element outside the buffer (R149, R154). -/
theorem blit_get_outside {xp yp : Int} {color : BitVec 96} {db : BitVec 2} {sw : Nat} {transp : Bool} {s : State} {p : Nat}
    (hp : s.cfg.fbSize ≤ p) : memGet (blit xp yp color db sw transp s).fb p = memGet s.fb p := by
  let P (t : State) : Prop := SameButFb s t ∧ memGet t.fb p = memGet s.fb p
  have main : P (blit xp yp color db sw transp s) := by
    refine forUpTo_keeps (P := P) ⟨SameButFb.refl s, rfl⟩ fun y t _ ht => ?_
    refine forUpTo_keeps (P := P) ht fun x u _ ⟨hf, hu⟩ => ?_
    refine ⟨hf.trans (blitPixel_frame _ _ _ _ _ _ _ _ _), ?_⟩
    rw [← hu]
    have hcfg : u.cfg = s.cfg := by rw [hf]
    have hr : SameButDraws u (readIdx (sheetElement db sw x y) u).2 := readElem_frame _ _ _
    have hc := congrArg State.cfg hr
    have hfb := congrArg State.fb hr
    simp only at hc hfb
    simp only [blitPixel]
    cases hcl : clipped u.cfg (x + xp) (y + yp) with
    | true => simp
    | false =>
      obtain ⟨⟨h1, h2⟩, h3, h4⟩ := clipped_false_iff.1 hcl
      rw [if_neg (by decide)]
      split
      · rw [hfb]
      · rw [writeFb_fb, hfb, memGet_memSet_other]
        rintro rfl
        rw [hcfg] at h2 h4 hp
        unfold Config.fbSize at hp
        have a : ((x : Int) + xp).toNat < s.cfg.fbW := by omega
        have b : ((y : Int) + yp).toNat + 1 ≤ s.cfg.fbH := by omega
        have := Nat.mul_le_mul_left s.cfg.fbW b
        nlinarith
  exact main.2

end Sys2Proof.Machine
end

