-- ==== Sys2Proof/Machine/HostScript.lean ====
section
/-! DEFINITION. The HOST's script notation (30_encoding.md R96), its pseudo-instructions (R98), the boot and frame sequences
(70_reset_and_hazards.md R196, R197) and a HOST that runs a script against the block.  The block never sees a
script, only the bus accesses it makes; this file is one HOST among all that `State.inputs` can describe
(notes/assumptions/17.md). -/

namespace Sys2Proof.Machine

/-- A statement of the host script (R96).  Offsets are block offsets, `label` and `bnz` are host-side control flow. -/
inductive Stmt where
  /-- `wr OFF, V`. -/
  | wr (off : Nat) (v : Word)
  /-- `rd OFF -> name`. -/
  | rd (off : Nat) (name : String)
  /-- `label:`. -/
  | label (name : String)
  /-- `bnz name, MASK, label`. -/
  | bnz (name : String) (mask : Word) (goal : String)
  deriving DecidableEq, Repr

/-- A command mnemonic is `wr CMD, <its word>` (R96). -/
def cmdStmt (i : Instr) : Stmt := .wr (regOffset .cmd) (encode i)

/-- `wait_done` (R98), polling into the host variable `s`.  R98's expansion has the one label `wd_loop`.  DESIGN CHOICE
(notes/assumptions/17.md): each use names its own label, `loopName`, so that no label of a script stands twice. -/
def waitDone (loopName : String) : List Stmt :=
  [.label loopName, .rd (regOffset .status) "s", .bnz "s" 0x1 loopName]

/-- `wr.tile X, Y, COLOR, DB` (R98): the parts CW needs, lowest first, then the databits. -/
def wrTile (c : Config) (x y color : Nat) (db : Word) : List Stmt :=
  let cell := x + y * c.mapWidth
  [.wr (offsetOf (.tile cell 0)) (BitVec.ofNat 32 color)] ++
    (if 32 < c.cw then [.wr (offsetOf (.tile cell 1)) (BitVec.ofNat 32 (color / 2 ^ 32))] else []) ++
    (if 64 < c.cw then [.wr (offsetOf (.tile cell 2)) (BitVec.ofNat 32 (color / 2 ^ 64))] else []) ++
    [.wr (offsetOf (.tile cell 3)) db]

/-- `clr.status` (R98). -/
def clrStatus : Stmt := .wr (regOffset .status) 0x00000006

/-- `wr.for i in a..b: S[i], E` (R98): the writes in ascending i, b - a + 1 of them. -/
def wrFor (a b : Nat) (window : Nat → Target) (e : Nat → Word) : List Stmt :=
  (List.range (b + 1 - a)).map (fun k => .wr (offsetOf (window (a + k))) (e (a + k)))

/-- Boot steps 1 to 3 (70_reset_and_hazards.md R196): the raw image `img` of `w` by `h` pixels, DECODE, BUILD_PAL. -/
def bootScript (w h lvl : Nat) (img : Nat → Word) : List Stmt :=
  wrFor 0 (w * h - 1) .raw img ++
    [.wr (regOffset .sheetDim) (BitVec.ofNat 16 h ++ BitVec.ofNat 16 w), cmdStmt .decode] ++ waitDone "boot1" ++
    [cmdStmt (.buildPal lvl)] ++ waitDone "boot2"

/-- One frame: a tick writes the scroll, then "`RENDER; EXPAND; wait_done`" (70_reset_and_hazards.md R197). -/
def frameScript (xs ys : Word) (loopName : String) : List Stmt :=
  [.wr (regOffset .xscroll) xs, .wr (regOffset .yscroll) ys, cmdStmt .render, cmdStmt .expand] ++ waitDone loopName

/-- A HOST running a script: its position, its variables (the newest first) and the block. -/
structure HostRun where
  pc : Nat
  vars : List (String × Word)
  block : State
  deriving DecidableEq, Repr

/-- Steps of the block until the environment's list is used up and no access is held. -/
def settle : Nat → State → Host.Outcome State Fault Refusal
  | 0, s => .next s
  | k + 1, s =>
    if s.inputs = [] ∧ s.held = none then .next s
    else
      match step s with
      | .next t => settle k t
      | .fault r => .fault r
      | .refused r => .refused r

/-- The HOST makes one access at `BASE + off` and waits for its response; a held access needs a presentation, a
completion and the access itself (70_reset_and_hazards.md R192).  An address that does not select the block is no
transaction of it and leaves it as it is (notes/assumptions/16.md). -/
def hostAccess (we : Bool) (off : Nat) (v : Word) (s : State) : Host.Outcome State Fault Refusal :=
  match s.cfg.offsetOf (s.cfg.base + off) with
  | some a => settle 3 { s with inputs := [.access { we := we, addr := a, size := 2, wdata := v }] }
  | none => .next s

/-- The value of a host variable.  DESIGN CHOICE (notes/assumptions/17.md): 0 before it is read into. -/
def varOf (vars : List (String × Word)) (name : String) : Word :=
  match vars.find? (fun p => p.1 == name) with
  | some p => p.2
  | none => 0

/-- The word `rd` puts in its variable, from the block after the access.  DESIGN CHOICE (notes/assumptions/17.md): where no data
comes back the word is a free value, a fresh draw.  That is a bus error, whose `rdata` is unspecified (20_memory.md R71, U3), and
an address outside the block, which something else answers; the block's last response is then an earlier access's. -/
def rdData (selected : Bool) (s : State) : Word × State :=
  match selected, s.resp with
  | true, some (.readData v) => (v, s)
  | _, _ => (Config.draw s.draws, s.drawn)

/-- One statement of the script; none when the script has ended, a branch names no label, or the block stops.  The ENGINE gets a
turn at each `bnz`, so a polling loop ends (R200's fairness).  DESIGN CHOICE (notes/assumptions/17.md): where a label stands more
than once, which R96 and R98 leave open, `bnz` goes to its first position in the script. -/
def hostStep (prog : List Stmt) (h : HostRun) : Option HostRun :=
  match prog[h.pc]? with
  | none => none
  | some (.label _) => some { h with pc := h.pc + 1 }
  | some (.wr off v) =>
    match hostAccess true off v h.block with
    | .next t => some { h with pc := h.pc + 1, block := t }
    | _ => none
  | some (.rd off name) =>
    match hostAccess false off 0 h.block with
    | .next t =>
      let d := rdData (t.cfg.offsetOf (t.cfg.base + off)).isSome t
      some { pc := h.pc + 1, vars := (name, d.1) :: h.vars, block := d.2 }
    | _ => none
  | some (.bnz name mask goal) =>
    match settle 1 { h.block with inputs := [.complete] } with
    | .next t =>
      if varOf h.vars name &&& mask = 0 then some { h with pc := h.pc + 1, block := t }
      else (prog.findIdx? (fun l => l == .label goal)).map (fun p => { h with pc := p, block := t })
    | _ => none

/-- At most `fuel` statements of a script. -/
def runScript (prog : List Stmt) : Nat → HostRun → HostRun
  | 0, h => h
  | k + 1, h =>
    match hostStep prog h with
    | some h' => runScript prog k h'
    | none => h

end Sys2Proof.Machine
end

