-- ==== Sys2Proof/Tests/Slice0.lean ====
section
/-! SUPPORT. Tests of the model: the smoke tests of WellFormed, words written out from spec/, small vectors of
95_test_vectors.md, and for every statement with hypotheses a state and operands that meet them. -/

open Sys2Proof Sys2Proof.Machine

/-! ### WellFormed: each check refuses an ill-formed command (30_encoding.md R96) -/

theorem test_wellFormed_refuses_levels_16 : (Instr.buildPal 16).wellFormed = false := by decide
theorem test_wellFormed_refuses_index_512 : (Instr.lookup 512).wellFormed = false := by decide
theorem test_wellFormed_admits_the_ends :
    (Instr.buildPal 0).wellFormed = true ∧ (Instr.buildPal 15).wellFormed = true ∧
      (Instr.lookup 0).wellFormed = true ∧ (Instr.lookup 511).wellFormed = true := by decide

/-! ### Decode: words written out bit by bit from 30_encoding.md R91 (fields from bit 31 down to bit 0) -/

theorem test_decode_F0_decode : decode (0#24 ++ 0b00000001#8) = .ok .decode := by decide
theorem test_decode_FL_buildPal : decode (0#20 ++ 0b0110#4 ++ 0b00000010#8) = .ok (.buildPal 6) := by decide
theorem test_decode_F0_render : decode (0#24 ++ 0b00000011#8) = .ok .render := by decide
theorem test_decode_F0_expand : decode (0#24 ++ 0b00000100#8) = .ok .expand := by decide
theorem test_decode_FI_lookup : decode (0#7 ++ 0b001100100#9 ++ 0#8 ++ 0b00000101#8) = .ok (.lookup 100) := by decide
/-- R94's must-be-0 fields: bit 8 of F0, bit 12 of FL, bits 25 and 15:8 of FI. -/
theorem test_decode_refuses_mustBeZero :
    [0x00000101, 0x00001002, 0x00000103, 0x00000104, 0x02000005, 0x0000FF05].map (fun w => decode w) =
      List.replicate 6 (.error .mustBeZero) := by decide
/-- R94: OP 0x00 and the ends of 0x06-0xFF. -/
theorem test_decode_refuses_unknownOp :
    [0x00000000, 0x00000006, 0xFFFFFFFF].map (fun w => decode w) = List.replicate 3 (.error .unknownOp) := by decide
/-- No two rows of R93 accept one word: they differ in the OP, which every mask holds. -/
theorem test_opcodeTable_rows_disjoint :
    opcodeTable.Pairwise (fun a b => a.value &&& b.mask &&& a.mask ≠ b.value &&& a.mask) := by decide
/-- 30_encoding.md R97, R93's example words. -/
theorem test_print :
    [0x00000602, 0x00640005, 0x00000003, 0x0000FF05].map (fun w => (disassemble w).print) =
      ["BUILD_PAL 6", "LOOKUP 100", "RENDER", ".word 0x0000FF05"] := by decide +kernel

/-! ### Small states -/

/-- P216 with a 2×2 pixel buffer. -/
def small : State := State.resetOf { Config.p216 with fbW := 2, fbH := 2 }

/-- P216 with an 8×8 pixel buffer and a 1×1 image of value `v` to decode with Q (95_test_vectors.md V-D1). -/
def onePixel (v : Word) (q : BitVec 9) : State :=
  { State.reset with raw := [(0, v)], latch := { State.reset.latch with sdim := 0x00010001, q := q }, eng := .busy }

/-- A palette of `n` entries is valid, and these of them are listed. -/
def withPal (n : BitVec 10) (m : Memory 24) (s : State) : State :=
  { s with pal := m, palCount := n, status := { s.status with palValid := true } }

/-- The quadrant sheet decoded (95_test_vectors.md): 0, 1, 2, 3 in the top left, top right, bottom left, bottom right 4×4 pixels. -/
def quadrants : Memory 3 := (List.range 64).map (fun i => (i, BitVec.ofNat 3 (i % 8 / 4 + 2 * (i / 32))))

/-- A BUSY block with the quadrant sheet, cell 0 holding `color` and `db`, scrolled by `xs` and `ys`. -/
def renderable (c : Config) (color : Memory 32) (db : Memory 2) (xs ys : Int) (transp : Bool) : State :=
  { State.resetOf c with
    eng := .busy
    idx := quadrants
    sheetCur := 0x00080008
    status := { (State.resetOf c).status with sheetValid := true }
    tileColor := color
    tileDb := db
    latch := { (State.resetOf c).latch with xs := xs, ys := ys, transp := transp } }

/-- What `f` says of an outcome's next state. -/
def nextAnd {α : Type} (f : State → α) : Host.Outcome State Fault Refusal → Option α
  | .next t => some (f t)
  | _ => none

/-- The values of elements 0..n-1 of a memory. -/
def firstOf {w : Nat} (n : Nat) (m : Memory w) : List (Option (BitVec w)) := (List.range n).map (memGet m)

/-! ### One command each, from 95_test_vectors.md -/

/-- V-D12: "discard sign", 0x80 div 64 = 2; STATUS as in V-D1. -/
theorem test_decode_discards_sign :
    nextAnd (fun t => (memGet t.idx 0, t.sheetCur, statusWord t.eng t.status)) (execDecode (onePixel 0xFFFFFF80 64)) =
      some (some 2, 0x00010001, 0x00010002) := by decide +kernel
/-- V-D6: QDIV 63 is QCONFIG with ERR_INFO 0x3F, and nothing is written. -/
theorem test_decode_qconfig :
    nextAnd (fun t => (t.idx, t.sheetCur, t.errInfo, statusWord t.eng t.status)) (execDecode (onePixel 0xFF 63)) =
      some ([], 0, 0x3F, 0x00000306) := by decide +kernel
/-- V-B1: PAL_COUNT 8 and the eight entries. -/
theorem test_buildPal_2 :
    nextAnd (fun t => (t.palCount, firstOf 8 t.pal, statusWord t.eng t.status)) (execBuildPal 2 State.reset) =
      some (8, [0x000000, 0x0000FF, 0x00FF00, 0x00FFFF, 0xFF0000, 0xFF00FF, 0xFFFF00, 0xFFFFFF].map some, 0x00020002) := by
  decide +kernel
/-- V-B4 and V-B6: entries 43, 100 and 200 of L = 6, entry 73 of L = 8. -/
theorem test_levelEntry :
    [levelEntry 6 1 1 1, levelEntry 6 2 4 4, levelEntry 6 5 3 2, levelEntry 8 1 1 1] =
      [0x333333, 0x66CCCC, 0xFF9966, 0x242424] ∧
    [levelIndex 6 1 1 1, levelIndex 6 2 4 4, levelIndex 6 5 3 2, levelIndex 8 1 1 1] = [43, 100, 200, 73] := by decide +kernel
/-- V-B5: BUILD_PAL 7 in P216 is PAL_LEVELS with ERR_INFO 7. -/
theorem test_buildPal_7_in_p216 :
    nextAnd (fun t => (t.pal, t.palCount, t.errInfo, statusWord t.eng t.status)) (execBuildPal 7 State.reset) =
      some ([], 0, 7, 0x00000406) := by decide +kernel
/-- V-E4 on a 2×2 buffer: the lowest failing pixel is reported and no RGB element is written. -/
theorem test_expand_lowest_failing_pixel :
    nextAnd (fun t => (t.rgb, t.errInfo, statusWord t.eng t.status))
      (execExpand (withPal 216 [(5, 0x0000FF)] { small with fb := [(0, 5), (1, 255), (2, 5), (3, 216)] })) =
      some ([], 1, 0x00020806) := by decide +kernel
/-- V-E2 on a 2×2 buffer, with two colours: each pixel has its own entry. -/
theorem test_expand_maps :
    nextAnd (fun t => firstOf 4 t.rgb)
      (execExpand (withPal 216 [(5, 0x0000FF), (43, 0x333333)] { small with fb := [(0, 5), (1, 43), (2, 5), (3, 5)] })) =
      some [some 0x0000FF, some 0x333333, some 0x0000FF, some 0x0000FF] := by decide +kernel
/-- V-L2: LOOKUP 100 gives 0x66CCCC. -/
theorem test_lookup_100 :
    nextAnd (fun t => (t.lutRgb, t.status.done, t.status.err)) (execLookup 100 (withPal 216 [(100, 0x66CCCC)] small)) =
      some (0x66CCCC, true, false) := by decide +kernel
/-- V-L4: LOOKUP 216 is PAL_RANGE with ERR_INFO 216, LUT_RGB unchanged. -/
theorem test_lookup_216 :
    nextAnd (fun t => (t.lutRgb, t.errInfo, t.status.errcode)) (execLookup 216 (withPal 216 [] { small with lutRgb := 9 })) =
      some (9, 216, 8) := by decide +kernel
/-- V-W8, the tile's top right pixel (7, 0): 20 plain, 10 with databits 1, 40 with 2, 30 with 3. -/
theorem test_mirroring :
    [0, 1, 2, 3].map (fun db => memGet (blitPixel 0 0 0x281E140A db 8 false 0 7 { State.reset with idx := quadrants }).fb 7) =
      [some 20, some 10, some 40, some 30] := by decide +kernel

/-! ### Bus and registers, from 95_test_vectors.md -/

/-- V-M8 and V-M9: the bits of a TILE part that exist, in P216 part 1 (none) and in P512 part 2 (bits 7:0). -/
theorem test_tile_parts :
    [State.resetOf Config.p216, State.resetOf Config.p512].map (fun s =>
      [0x100004, 0x100008].map (fun off => (transact (readAt off) (transact (writeAt off 0xFFFFFFFF) s)).resp)) =
      [[0, 0], [0xFFFFFFFF, 0xFF]].map (fun l => l.map (fun v => some (.readData v))) := by decide +kernel
/-- V-M7: a write to FB[0] keeps the low FIELD_W bits, 8 in P216 and 9 in P512. -/
theorem test_fb_window :
    [Config.p216, Config.p512].map (fun c =>
      (transact (readAt 0x200000) (transact (writeAt 0x200000 0x00012345) (State.resetOf c))).resp) =
      [some (.readData 0x45), some (.readData 0x145)] := by decide +kernel
/-- V-M2 to V-M5: misaligned, reserved, unmapped, beyond the element count. -/
theorem test_bus_errors :
    [0x002, 0x03C, 0x600000, 0x200100].map (fun off => (transact (readAt off) State.reset).resp) =
      List.replicate 4 (some .busError) := by decide +kernel
/-- V-M12: an FB read during a RENDER is held, the completion step runs, and it then returns the rendered pixel. -/
theorem test_fb_read_is_held :
    nextAnd (fun t => (t.resp, t.held, statusWord t.eng t.status))
      (core.run 3 { renderable Config.p216 [(0, 0x05050505)] [(0, 0)] 0 0 false with
        inputs := [.access (readAt 0x200000)], latch := { State.reset.latch with cmdw := 3 } }) =
      some (some (.readData 5), none, 0x00010002) := by decide +kernel
/-- The step after placing a table word runs exactly that command (10_state.md R50). -/
theorem test_withFetchWord_runs :
    nextAnd (fun t => (t.palCount, t.cmd)) (step (State.reset.withFetchWord 32 0x00000202)) = some (8, 0x00000202) := by
  decide +kernel

/-! ### Witnesses: for every statement with hypotheses, a state and operands that meet them -/

/-- An outcome whose next state passes a check has that next state. -/
theorem nextAnd_some {α : Type} {f : State → α} {o : Host.Outcome State Fault Refusal} {x : α} (h : nextAnd f o = some x) :
    ∃ t, o = .next t ∧ f t = x := by
  cases o with
  | next t => exact ⟨t, rfl, by simpa [nextAnd] using h⟩
  | fault r => cases r
  | refused r => simp [nextAnd] at h

/-- An element that passes a check has a value that passes it. -/
theorem element_of_any {w : Nat} {o : Option (BitVec w)} {f : BitVec w → Bool} (h : o.any f = true) :
    ∃ v, o = some v ∧ f v = true := by
  cases o with
  | none => cases h
  | some v => exact ⟨v, rfl, h⟩

/-- The block right after reset with these events to come. -/
def resetWith (l : List Event) : State := { State.reset with inputs := l }

/-- A block BUSY with the accepted word `w`, these events to come. -/
def busyWith (w : Word) (l : List Event) : State :=
  { State.reset with eng := .busy, cmd := w, latch := { State.reset.latch with cmdw := w }, inputs := l }

/-- The palette of L = 2, valid. -/
def palette2 (s : State) : State :=
  withPal 8 ((List.range 8).map (fun j => (j, levelEntry 2 (j / 4) (j / 2 % 2) (j % 2)))) s

/-- A picture ready to render: the quadrant sheet, the palette of L = 2, one cell, one FB pixel. -/
def picture : State :=
  palette2 { renderable Config.p216 [(0, 0x281E140A)] [(0, 3)] 0 0 false with
    fb := [(0, 7)], cmd := 3, latch := { State.reset.latch with cmdw := 3 } }

theorem witness_DecodeOfEncode : (Instr.lookup 511).wellFormed = true ∧ (Instr.buildPal 15).wellFormed = true := by decide

theorem witness_EncodeOfDecode : decode 0x01FF0005 = .ok (.lookup 511) := by decide

theorem witness_DecodeLegalExactly :
    0x00000F02#32 &&& 0xFFFFF0FF#32 = 0x00000002#32 ∧ 0x01FF0005#32 &&& 0xFE00FFFF#32 = 0x00000005#32 := by decide

theorem witness_StepRunsDecodedCommand :
    (busyWith 0x00000F02 [.complete]).cfg.legal = true ∧ (busyWith 0x00000F02 [.complete]).eng = .busy ∧
      engineHasTurn (busyWith 0x00000F02 [.complete]) = true ∧
      decode (busyWith 0x00000F02 [.complete]).latch.cmdw = .ok (.buildPal 15) ∧
      decodeTableWord 32 0x01FF0005 = some (.lookup 511) := by decide +kernel

/-- One word for each clause of R94: OP 0, OP 6, OP 0xFF, and each OP with its lowest or highest must-be-0 bit. -/
theorem witness_IllegalWordEndsInBadcmd :
    Config.p216.legal = true ∧ (resetWith [.access (writeAt 0x018 0), .reset]).eng = .idle ∧
      (resetWith [.access (writeAt 0x018 0), .reset]).held = none ∧
      (busyWith 0x101 [.complete, .reset]).eng = .busy ∧ engineHasTurn (busyWith 0x101 [.complete, .reset]) = true ∧
      (busyWith 0x101 [.complete, .reset]).latch.cmdw = 0x101 ∧
      illegalWord 0 ∧ illegalWord 6 ∧ illegalWord 0xFFFFFFFF ∧ illegalWord 0x101 ∧ illegalWord 0x1002 ∧ illegalWord 0x103 ∧
      illegalWord 0x80000004 ∧ illegalWord 0x105 ∧ illegalWord 0x02000005 := by
  refine ⟨by decide, rfl, rfl, rfl, rfl, rfl, ?_⟩
  simp [illegalWord]

/-- A legal elaboration with every bound met with equality, and one just outside each of five of them. -/
theorem witness_IllegalElaborationRefused :
    ({ Config.p512 with qReset := 511, mapLog2 := 8, fbW := 4, fbH := 65535, rawCap := 262144, base := 0x800000 }).legal = true ∧
    [{ Config.p216 with rawCap := 63 }, { Config.p216 with mapLog2 := 9 }, { Config.p216 with fbW := 512, fbH := 513 },
      { Config.p216 with nSub := 5 }, { Config.p216 with base := 4 }].map Config.legal = List.replicate 5 false := by decide

theorem witness_LegalStepIsSafe :
    [State.reset.cfg, Config.p512, { Config.p216 with rawCap := 262144, mapLog2 := 8, fbW := 512, fbH := 512 }].map
      Config.legal = List.replicate 3 true := by decide

/-- A first access is a CMD write, or one is held while IDLE. -/
theorem witness_IdleBlockPerformsAccesses :
    (resetWith [.access (writeAt 0x018 3), .reset]).cfg.legal = true ∧
      (resetWith [.access (writeAt 0x018 3), .reset]).eng = .idle ∧
      (resetWith [.access (writeAt 0x018 3), .reset]).held = none ∧
      resetNext { resetWith [.complete] with held := some (readAt 0x200000) } = false := by decide

/-- A CMD write, the last FB element's word, for the second clause a STATUS read and a CMD read, for the third an offset beyond the FB
window's elements. -/
theorem witness_StallRuleHoldsAndLifts :
    (busyWith 3 [.access (readAt 0x2000FC)]).cfg.legal = true ∧ (busyWith 3 [.access (readAt 0x2000FC)]).eng = .busy ∧
      (busyWith 3 [.access (readAt 0x2000FC)]).held = none ∧ resetNext (busyWith 3 []) = false ∧
      (writeAt 0x018 4).addressed Config.p216 = some (.reg .cmd) ∧ (writeAt 0x018 4).we = true ∧
      (readAt 0x2000FC).addressed Config.p216 = some (.fb 63) ∧
      (readAt 0x014).addressed Config.p216 = some (.reg .status) ∧
      (readAt 0x018).addressed Config.p216 = some (.reg .cmd) ∧ (readAt 0x018).we = false ∧
      (readAt 0x200100).addressed Config.p216 = none := by decide +kernel

theorem witness_RegistersReadAsStored :
    ({ picture with palCount := 512, errInfo := 0xFFFFFFFF, lutRgb := 0xFFFFFF }).cfg.legal = true := by decide

theorem witness_ResetRestoresResetValues :
    ({ picture with inputs := [.reset], held := some (readAt 0x200000) }).cfg.legal = true := by decide

theorem witness_ReadOnlyRegisterWritesIgnored :
    0x038 ∈ [0x000, 0x004, 0x008, 0x00C, 0x01C, 0x030, 0x034, 0x038] := by decide

/-- The last element of each window, in P216 with the common set-up. -/
theorem witness_windows_last_elements :
    Config.p216.legal = true ∧ 255 < Config.p216.palDepth ∧ 63 < Config.p216.fbSize ∧ 4095 < Config.p216.rawCap ∧
      4095 < Config.p216.cellCount := by decide

/-- ERRCODE goes to 0 at the acceptance of a command and at reset. -/
theorem witness_StatusWriteOneToClear :
    ∀ e ∈ [Event.access (writeAt 0x018 3), Event.reset],
      ∃ t, step { resetWith [e] with status := { State.reset.status with errcode := 8 } } = .next t ∧ t.status.errcode = 0 := by
  intro e he
  simp only [List.mem_cons, List.not_mem_nil, or_false] at he
  rcases he with rfl | rfl <;> exact nextAnd_some (by decide +kernel)

theorem witness_UnsupportedAccessIsBusError :
    ({ readAt 0 with size := 1 } : BusAccess).size ≠ 2 ∧ (readAt 0x7FFFFF).addr.toNat % 4 ≠ 0 := by decide

/-- The first and the last offset of each hole, in P216 with the common set-up. -/
theorem witness_UnmappedOffsetIsBusError :
    [0x3C, 0xFFFC, 0x010400, 0xFFFFC, 0x110000, 0x1FFFFC, 0x200100, 0x2FFFFC, 0x300100, 0x3FFFFC, 0x404000, 0x4FFFFC, 0x504000,
      0x5FFFFC, 0x600000, 0x7FFFFC].map (fun off => target Config.p216 off) = List.replicate 16 none ∧
    0x010000 + 4 * Config.p216.palDepth = 0x010400 ∧ 0x100000 + 16 * Config.p216.cellCount = 0x110000 ∧
    0x200000 + 4 * Config.p216.fbSize = 0x200100 ∧ 0x400000 + 4 * Config.p216.rawCap = 0x404000 := by decide +kernel

theorem witness_WindowWordViews :
    memGet ({ picture with fb := [(63, 255)] }).fb 63 = some 255 ∧ (255#9).toNat < 2 ^ Config.p216.fieldW ∧
      memGet ({ picture with raw := [(4095, 9)] }).raw 4095 = some 9 ∧ memGet ({ picture with pal := [(255, 9)] }).pal 255 = some 9 ∧
      memGet ({ picture with rgb := [(63, 9)] }).rgb 63 = some 9 ∧ memGet picture.idx 63 = some 3 ∧
      63 < picture.cfg.rawCap := by decide +kernel

theorem witness_UnwrittenReadIsFreshDraw :
    memGet State.reset.raw 4095 = none ∧ memGet State.reset.idx 4095 = none ∧ memGet State.reset.fb 63 = none ∧
      memGet State.reset.pal 255 = none ∧ memGet State.reset.rgb 63 = none ∧ memGet State.reset.tileDb 4095 = none ∧
      memGet State.reset.tileColor (3 * 4095 + 2) = none ∧ 32 * 2 < Config.p512.cw ∧ 4095 < Config.p512.cellCount := by
  decide +kernel

/-- The map has no word-aligned offset that names a target at two offsets: a cell's last word, in P512. -/
theorem witness_AddressMapRoundTrip :
    Config.p512.legal = true ∧ 4095 < Config.p512.cellCount ∧ 0x10FFFC % 4 = 0 ∧
      target Config.p512 0x10FFFC = some (.tile 4095 3) := by decide +kernel

theorem witness_InterruptLineFollowsDone :
    (2 : Word).getLsbD 1 = true ∧ (0xFFFFFFFD : Word).getLsbD 1 = false ∧
      ({ State.reset with status := { State.reset.status with done := true } }).status.done = true := by decide

theorem witness_HostReadsHaveNoSideEffect : (readAt 0x018).we = false := rfl

/-- V-D8's boundary: the 64×64 image is RAW_CAP pixels, and Q = 64 is the smallest legal factor. -/
theorem witness_DecodeQuantizesTheImage :
    let s := { onePixel 0xFF 64 with latch := { State.reset.latch with sdim := 0x00400040, q := 64 } }
    s.cfg.legal = true ∧ 0 < lowHalf s.latch.sdim ∧ 0 < highHalf s.latch.sdim ∧
      lowHalf s.latch.sdim * highHalf s.latch.sdim ≤ s.cfg.rawCap ∧ s.latch.q ≠ 0 ∧ 255 / s.latch.q.toNat < s.cfg.nSub ∧
      memGet s.raw 0 = some 0xFF := by decide +kernel

theorem witness_DecodeErrorsInOrder :
    lowHalf 0x00010000 = 0 ∧ highHalf 0x00000001 = 0 ∧
      Config.p216.rawCap < lowHalf 0x00410040 * highHalf 0x00410040 ∧
      lowHalf 0x00400040 * highHalf 0x00400040 ≤ Config.p216.rawCap ∧ Config.p216.nSub ≤ 255 / (63 : BitVec 9).toNat := by
  decide +kernel

theorem witness_LegalQuantizationFactors :
    Config.p216.nSub = 4 ∧ Config.p512.nSub = 8 ∧ badQ Config.p216 64 = false ∧ badQ Config.p512 511 = false := by decide +kernel

theorem witness_RoundTripThroughPalette : (2 ≤ levels 1 ∧ 2 ≤ levels 255) ∧ levels 256 = 1 := by decide

theorem witness_BuildPalWritesTheCube : State.reset.cfg.legal = true ∧ 6 ≤ State.reset.cfg.lMax ∧ 8 ≤ Config.p512.lMax := by decide

theorem witness_BuildPalLevelError :
    (1 < 2 ∨ Config.p216.lMax < 1) ∧ (7 < 2 ∨ Config.p216.lMax < 7) ∧ ({ Config.p512 with nSub := 4 }).legal = true := by decide

theorem witness_LookupReturnsTheEntry :
    picture.status.palValid = true ∧ 7 < picture.palCount.toNat ∧ memGet picture.pal 7 = some 0xFFFFFF ∧
      memGet (withPal 8 [] small).pal 7 = none := by decide +kernel

theorem witness_LookupErrorsInOrder :
    State.reset.status.palValid = false ∧ picture.status.palValid = true ∧ picture.palCount.toNat ≤ 8 := by decide +kernel

theorem witness_LookupAfterBuildPal : Config.p216.legal = true ∧ 2 ≤ 6 ∧ 6 ≤ Config.p216.lMax ∧ 5 < 6 ∧ 0 < 6 := by decide

theorem witness_ExpandMapsEveryPixel :
    let s := palette2 { small with fb := [(0, 7), (1, 0), (2, 3), (3, 7)] }
    s.cfg.legal = true ∧ s.status.palValid = true ∧
      ∀ p, p < s.cfg.fbSize → ∃ v, memGet s.fb p = some v ∧ v.toNat < 2 ^ s.cfg.fieldW ∧ v.toNat < s.palCount.toNat ∧
        memGet s.pal v.toNat ≠ none := by
  refine ⟨by decide, by decide, fun p hp => ?_⟩
  have all : ∀ k : Fin 4, (memGet (palette2 { small with fb := [(0, 7), (1, 0), (2, 3), (3, 7)] }).fb k).any (fun v =>
      decide (v.toNat < 2 ^ 8 ∧ v.toNat < 8 ∧ memGet (palette2 small).pal v.toNat ≠ none)) = true := by decide +kernel
  obtain ⟨v, hv, h⟩ := element_of_any (all ⟨p, hp⟩)
  exact ⟨v, hv, of_decide_eq_true h⟩

/-- Pixel 2 is the lowest with no entry: index 8 of a palette of 8. -/
theorem witness_ExpandErrorsInOrder :
    let s := palette2 { small with fb := [(0, 7), (1, 0), (2, 8), (3, 255)] }
    s.cfg.legal = true ∧ s.status.palValid = true ∧ 2 < s.cfg.fbSize ∧
      firstOf 4 s.fb = [some 7, some 0, some 8, some 255] ∧ s.palCount.toNat = 8 ∧ State.reset.status.palValid = false := by
  decide +kernel

theorem witness_PackedSubColoursExtract :
    Config.p512.legal = true ∧ [511, 2, 3, 4, 5, 6, 7, 511].length = Config.p512.nSub ∧
      (∀ x ∈ [511, 2, 3, 4, 5, 6, 7, 511], x < 2 ^ Config.p512.fieldW) ∧ 7 < Config.p512.nSub := by decide

/-- V-W4's get(-1, -1) reads element 4095 and get(-65, 130) element 191. -/
theorem witness_TileLookupWraps :
    let s := renderable Config.p216 [(3 * 191, 0x0B0B0B0B), (3 * 4095, 0x0C0C0C0C)] [(191, 1), (4095, 2)] 0 0 false
    ((4095 : Nat) : Int) = -1 % 2 ^ s.cfg.mapLog2 + -1 % 2 ^ s.cfg.mapLog2 * 2 ^ s.cfg.mapLog2 ∧
      writtenColor s 4095 = some 0x0C0C0C0C ∧ memGet s.tileDb 4095 = some 2 ∧
      ((191 : Nat) : Int) = -65 % 2 ^ s.cfg.mapLog2 + 130 % 2 ^ s.cfg.mapLog2 * 2 ^ s.cfg.mapLog2 ∧
      writtenColor s 191 = some 0x0B0B0B0B ∧ memGet s.tileDb 191 = some 1 := by decide +kernel

theorem witness_RenderVisitsTheTileRange :
    picture.status.sheetValid = true ∧ 8 ≤ lowHalf picture.sheetCur ∧ 8 ≤ highHalf picture.sheetCur ∧
      (-8 : Int) % 8 = 0 ∧ (2147483640 : Int) % 8 = 0 := by decide +kernel

/-- The last pixel of `picture`: covered by cell 0 mirrored in both axes, so it reads the sheet's element 0. -/
theorem witness_RenderClosedForm :
    picture.status.sheetValid = true ∧ 8 ≤ lowHalf picture.sheetCur ∧ 8 ≤ highHalf picture.sheetCur ∧
      7 < picture.cfg.fbW ∧ 7 < picture.cfg.fbH ∧ writtenColor picture (coveringCell picture 7 7) = some 0x281E140A ∧
      memGet picture.tileDb (coveringCell picture 7 7) = some 3 ∧ memGet picture.idx (coveringElement picture 3 7 7) = some 0 ∧
      picture.latch.transp = false := by decide +kernel

theorem witness_RenderErrorsInOrder :
    State.reset.status.sheetValid = false ∧ picture.status.sheetValid = true ∧
      lowHalf ({ picture with sheetCur := 0x00080007 }).sheetCur < 8 ∧
      highHalf ({ picture with sheetCur := 0x00070008 }).sheetCur < 8 := by decide +kernel

/-- A tile just left of, right of, above and below the 8×8 buffer. -/
theorem witness_RenderStaysInsideTheBuffer :
    (-8 : Int) + 8 ≤ 0 ∧ (picture.cfg.fbW : Int) ≤ 8 ∧ (picture.cfg.fbH : Int) ≤ 8 ∧ picture.cfg.fbW % 8 = 0 ∧
      64 ≤ 64 ∧ picture.cfg.fbSize = 64 ∧ ∃ t, exec .render picture = .next t ∧ t.eng = .idle := by
  refine ⟨by decide, by decide, by decide, by decide, by decide, by decide, ?_⟩
  exact nextAnd_some (by decide +kernel)

/-- The quadrant pattern is written, and a tile at (0, 0) of an 8×8 buffer lies wholly inside it. -/
theorem witness_MirroringReversesTheTile :
    0 + 8 ≤ picture.cfg.fbW ∧ 0 + 8 ≤ picture.cfg.fbH ∧
      ∀ sx sy, sx < 8 → sy < 8 → memGet picture.idx (sx + sy * 8) ≠ none := by
  refine ⟨by decide, by decide, fun sx sy hx hy => ?_⟩
  have all : ∀ a b : Fin 8, memGet picture.idx (a.1 + b.1 * 8) ≠ none := by decide +kernel
  exact all ⟨sx, hx⟩ ⟨sy, hy⟩

/-- Two RENDERs of `picture` complete, and every pixel's cell and the pattern are written. -/
theorem witness_RenderIsIdempotent :
    (∃ t, exec .render picture = .next t ∧ nextAnd (fun u => u.eng) (exec .render t) = some .idle) ∧
      (∀ px py : Fin 8, writtenColor picture (coveringCell picture px py) ≠ none ∧
        memGet picture.tileDb (coveringCell picture px py) ≠ none) ∧
      ∀ sx sy : Fin 8, memGet picture.idx (sx.1 + sy.1 * lowHalf picture.sheetCur) ≠ none := by
  refine ⟨?_, by decide +kernel, by decide +kernel⟩
  exact nextAnd_some (f := fun t => nextAnd (fun u => u.eng) (exec .render t)) (by decide +kernel)

/-- `picture` with two command outcomes: BUILD_PAL 7 raises an error, BUILD_PAL 6 changes the result registers. -/
theorem witness_commands_end :
    picture.status.err = false ∧ (∃ t, exec (.buildPal 7) picture = .next t ∧ t.status.err = true) ∧
      ∃ t, exec (.buildPal 6) picture = .next t ∧ t.palCount = 216 := by
  refine ⟨by decide +kernel, ?_, ?_⟩ <;> exact nextAnd_some (by decide +kernel)

/-- A step in which result registers change, with both valid flags set before and no reset next. -/
theorem witness_ResultRegistersChangeOnlyAtCompletion :
    let s := { picture with cmd := 0x602, latch := { picture.latch with cmdw := 0x602 } }
    resetNext s = false ∧ s.status.sheetValid = true ∧ s.status.palValid = true ∧
      ∃ t, step s = .next t ∧ t.palCount = 216 := by
  refine ⟨rfl, by decide +kernel, by decide +kernel, ?_⟩
  exact nextAnd_some (by decide +kernel)

theorem witness_BusyEngineCompletes :
    let s := busyWith 3 [.access (readAt 0x014), .access (readAt 0x200000), .complete]
    s.cfg.legal = true ∧ s.eng = .busy ∧ ∀ e ∈ s.inputs, e ≠ .reset := by decide

/-- `picture` is a state with every kind of content that keeps its memories canonical, and a step of it answers. -/
theorem witness_StepKeepsMemoriesOk : MemoriesOk picture ∧ ∃ t, step picture = .next t ∧ t.eng = .idle := by
  have ok : MemoriesOk picture := by constructor <;> decide +kernel
  exact ⟨ok, nextAnd_some (by decide +kernel)⟩

/-- `picture` BUSY with an FB read held. -/
theorem witness_StepKeepsStatusOk :
    StatusOk { picture with held := some (readAt 0x200000) } ∧
      ∃ t, step { picture with held := some (readAt 0x200000) } = .next t ∧ t.eng = .idle := by
  refine ⟨⟨fun _ => rfl, fun _ => rfl, fun _ => rfl, fun _ => rfl, fun _ => rfl, by decide +kernel, by decide +kernel, ?_⟩, ?_⟩
  · intro a h
    cases h
    decide +kernel
  · exact nextAnd_some (by decide +kernel)

/-- `picture` has a valid sheet and a valid palette. -/
theorem witness_StepKeepsSheetPaletteOk : SheetPaletteOk picture ∧ ∃ t, step picture = .next t ∧ t.eng = .idle := by
  refine ⟨⟨fun _ => by decide +kernel, fun _ i hi => ?_, ?_, fun _ => ?_, ?_⟩, ?_⟩
  · have all : ∀ k : Fin 64, (memGet picture.idx k).any (fun v => decide (v.toNat < 4)) = true := by decide +kernel
    obtain ⟨v, hv, h⟩ := element_of_any (all ⟨i, hi⟩)
    exact ⟨v, hv, of_decide_eq_true h⟩
  · exact fun h => absurd h (by decide +kernel)
  · refine ⟨2, by decide, by decide, by decide +kernel, ?_⟩
    have all : ∀ r g b : Fin 2, memGet picture.pal (r.1 * 2 * 2 + g.1 * 2 + b.1) = some (levelEntry 2 r g b) := by decide +kernel
    exact fun r g b hr hg hb => all ⟨r, hr⟩ ⟨g, hg⟩ ⟨b, hb⟩
  · exact fun h => absurd h (by decide +kernel)
  · exact nextAnd_some (by decide +kernel)

theorem witness_ParamsReportTheElaboration : picture.cfg.legal = true ∧ (State.resetOf Config.p512).cfg.legal = true := by decide

theorem witness_InvariantsHoldAtReset : Config.p512.legal = true := by decide

theorem witness_RenderOverwritesInFull :
    picture.status.sheetValid = true ∧ 8 ≤ lowHalf picture.sheetCur ∧ 8 ≤ highHalf picture.sheetCur ∧
      picture.latch.transp = false ∧ 63 < picture.cfg.fbSize := by decide +kernel

theorem witness_PaletteIndexIsBijection : 215 < 6 * 6 * 6 ∧ 5 < 6 := by decide

/-- A step with both valid flags set and no reset next (also the hypothesis of `ElaborationNeverChanges`). -/
theorem witness_ValidFlagsClearedOnlyByReset :
    resetNext picture = false ∧ picture.status.sheetValid = true ∧ picture.status.palValid = true ∧
      ∃ t, step picture = .next t ∧ t.cfg = Config.p216 := by
  refine ⟨rfl, by decide +kernel, by decide +kernel, ?_⟩
  exact nextAnd_some (by decide +kernel)

/-! ### RENDER of 95_test_vectors.md -/

/-- V-R9: the sentinel 255 is skipped (7 stays), 1 and 2 are written (pixels (0,0), (4,0), (0,4), (4,4)). -/
theorem test_render_transparency :
    nextAnd (fun t => [0, 4, 32, 36].map (memGet t.fb))
      (execRender { renderable Config.p216 [(0, 0x02FF01FF)] [(0, 0)] 0 0 true with fb := [(0, 7), (32, 7)] }) =
      some [some 7, some 1, some 7, some 2] := by decide +kernel
/-- V-R6, pixels (0,0), (3,3), (7,3), (7,7): scroll (-3, -3) shows cell 0 from (3,3) on and wraps to cells 63·65, 64·63 and 63. -/
theorem test_render_negative_scroll :
    nextAnd (fun t => [0, 3, 24, 27, 31, 63].map (memGet t.fb))
      (execRender (renderable Config.p216 [(0, 0x281E140A), (3 * 63, 0x03030303), (3 * (63 * 64), 0x02020202),
        (3 * (63 + 63 * 64), 0x01010101)] [(0, 0), (63, 0), (63 * 64, 0), (63 + 63 * 64, 0)] (-3) (-3) false)) =
      some [some 1, some 2, some 3, some 10, some 20, some 40] := by decide +kernel
end

/-! PROOFS of the family 00_scope.md: the elaboration, which step comes next, and that a BUSY ENGINE ends. -/

namespace Sys2Proof.Machine

/-! ### What a transaction and a command leave of the elaboration, ENG and the environment's list -/

theorem SameButDraws.cfg_eq {s t : State} (h : SameButDraws s t) : t.cfg = s.cfg := by rw [h]

theorem SameButDraws.eng_eq {s t : State} (h : SameButDraws s t) : t.eng = s.eng := by rw [h]

theorem SameButDraws.inputs_eq {s t : State} (h : SameButDraws s t) : t.inputs = s.inputs := by rw [h]

@[simp] theorem writeReg_cfg (r : Reg) (v : Word) (s : State) : (writeReg r v s).cfg = s.cfg := by
  cases r <;> rfl

@[simp] theorem writeReg_inputs (r : Reg) (v : Word) (s : State) : (writeReg r v s).inputs = s.inputs := by
  cases r <;> rfl

/-- Only a CMD write starts the ENGINE (10_state.md R31). -/
theorem writeReg_eng {r : Reg} (hr : r ≠ .cmd) (v : Word) (s : State) : (writeReg r v s).eng = s.eng := by
  cases r with
  | cmd => exact absurd rfl hr
  | _ => rfl

@[simp] theorem writeTarget_cfg (g : Target) (v : Word) (s : State) : (writeTarget g v s).cfg = s.cfg := by
  cases g with
  | reg r => exact writeReg_cfg r v s
  | tile c k => simp only [writeTarget]; split <;> simp
  | _ => rfl

@[simp] theorem writeTarget_inputs (g : Target) (v : Word) (s : State) : (writeTarget g v s).inputs = s.inputs := by
  cases g with
  | reg r => exact writeReg_inputs r v s
  | tile c k => simp only [writeTarget]; split <;> simp
  | _ => rfl

@[simp] theorem transact_cfg (a : BusAccess) (s : State) : (transact a s).cfg = s.cfg := by
  cases transact_cases a s with
  | busError _ ht => rw [ht, respond_cfg]
  | read g _ _ ht => rw [ht, respond_cfg, (readTarget_frame g s).cfg_eq]
  | write g _ _ ht => rw [ht, respond_cfg, writeTarget_cfg]

@[simp] theorem transact_inputs (a : BusAccess) (s : State) : (transact a s).inputs = s.inputs := by
  cases transact_cases a s with
  | busError _ ht => rw [ht, respond_inputs]
  | read g _ _ ht => rw [ht, respond_inputs, (readTarget_frame g s).inputs_eq]
  | write g _ _ ht => rw [ht, respond_inputs, writeTarget_inputs]

/-- A write the stall rule does not hold goes to a register other than CMD (70_reset_and_hazards.md R192). -/
theorem reg_of_not_stalls_write {c : Config} {a : BusAccess} {g : Target} (hs : a.stalls c = false)
    (ha : a.addressed c = some g) (hw : a.we = true) : ∃ r, g = .reg r ∧ r ≠ .cmd := by
  unfold BusAccess.stalls at hs
  cases g with
  | reg r => exact ⟨r, rfl, by simpa [ha, hw] using hs⟩
  | _ => simp [ha] at hs

/-- An access the stall rule does not hold leaves ENG as it is (70_reset_and_hazards.md R192). -/
theorem transact_eng_of_not_stalls {a : BusAccess} {s : State} (hs : a.stalls s.cfg = false) :
    (transact a s).eng = s.eng := by
  cases transact_cases a s with
  | busError _ ht => rw [ht, respond_eng]
  | read g _ _ ht => rw [ht, respond_eng, (readTarget_frame g s).eng_eq]
  | write g ha hw ht =>
    obtain ⟨r, rfl, hr⟩ := reg_of_not_stalls_write hs ha hw
    rw [ht, respond_eng]
    exact writeReg_eng hr a.wdata s

theorem ExecCase.cfg_eq {i : Instr} {s t : State} (h : ExecCase i s t) : t.cfg = s.cfg := by
  cases h with
  | error _ _ e w s' _ hs => exact hs.cfg_eq
  | decode => rw [complete_cfg, installSheet_cfg, decodeAll_frame]
  | buildPal l => rw [complete_cfg, installPalette_cfg, buildEntries_frame]
  | render => rw [complete_cfg, renderTiles_frame s]
  | expand => rw [complete_cfg, expandPixels_frame, (readFbRun_frame _ s).cfg_eq]
  | lookup j => rw [complete_cfg, lookupEntry_frame]

/-- Every command ends with the ENGINE IDLE, with success or with an error (60_exceptions.md R170). -/
theorem ExecCase.eng_idle {i : Instr} {s t : State} (h : ExecCase i s t) : t.eng = .idle := by
  cases h <;> rfl

/-! ### Which step comes next -/

theorem step_of_legal {s : State} (hl : s.cfg.legal = true) : step s = nextStep s := if_pos hl

/-- The step at which the ENGINE has its turn while BUSY is the completion step (00_scope.md R9). -/
theorem step_eq_completionStep {s : State} (hl : s.cfg.legal = true) (he : s.eng = .busy) (ht : engineHasTurn s = true) :
    step s = completionStep { s with inputs := afterTurn s.inputs } := by
  have turn : engineTurn s = completionStep { s with inputs := afterTurn s.inputs } := if_pos he
  rw [step_of_legal hl, ← turn]
  unfold engineHasTurn at ht
  unfold nextStep
  split at ht
  · cases ht
  · next hh hr => simp [hh, he]
  · cases ht
  · next hh hr ha =>
    cases hi : s.inputs with
    | nil => simp [hh]
    | cons e rest =>
      cases e with
      | access a => exact absurd hi (ha a rest)
      | complete => simp [hh]
      | reset => exact absurd hi (hr rest)

/-- With no access held, the step at which the HOST makes one presents it (00_scope.md R9). -/
theorem step_eq_present {s : State} {a : BusAccess} {rest : List Event} (hl : s.cfg.legal = true) (hh : s.held = none)
    (hi : s.inputs = .access a :: rest) : step s = .next (present a { s with inputs := rest }) := by
  rw [step_of_legal hl, nextStep, hi, hh]

/-- An IDLE block lifts the hold and performs the held access (70_reset_and_hazards.md R192). -/
theorem step_eq_lift {s : State} {a : BusAccess} (hl : s.cfg.legal = true) (he : s.eng = .idle) (hh : s.held = some a)
    (hr : resetNext s = false) : step s = .next (transact a { s with held := none }) := by
  rw [step_of_legal hl]
  unfold resetNext at hr
  unfold nextStep
  split at hr
  · cases hr
  · next hr => simp [hh, he]

theorem present_of_mustWait {a : BusAccess} {s : State} (hw : mustWait a s = true) : present a s = { s with held := some a } :=
  if_pos hw

theorem present_of_not_mustWait {a : BusAccess} {s : State} (hw : mustWait a s = false) : present a s = transact a s :=
  if_neg (by simp [hw])

/-- The stall rule holds nothing while IDLE (70_reset_and_hazards.md R192). -/
theorem mustWait_of_idle (a : BusAccess) {s : State} (he : s.eng = .idle) : mustWait a s = false := by
  simp [mustWait, he]

theorem stalls_of_busy_not_mustWait {a : BusAccess} {s : State} (he : s.eng = .busy) (hw : mustWait a s = false) :
    a.stalls s.cfg = false := by
  simpa [mustWait, he] using hw

theorem completionStep_of_decode {s : State} {i : Instr} (hd : decode s.latch.cmdw = .ok i) : completionStep s = exec i s := by
  rw [completionStep, hd]

/-- The completion step leaves the ENGINE IDLE, whatever the latched word (10_state.md R50). -/
theorem completionStep_ends_idle (s : State) : ∃ t, completionStep s = .next t ∧ t.eng = .idle := by
  cases hd : decode s.latch.cmdw with
  | ok i =>
    obtain ⟨t, hx, hc⟩ := exec_cases i s
    exact ⟨t, (completionStep_of_decode hd).trans hx, hc.eng_idle⟩
  | error e => exact ⟨raiseError .badCmd s.latch.cmdw s, by rw [completionStep, hd], rfl⟩

theorem decode_of_decodeTableWord {nbits w : Nat} {i : Instr} (h : decodeTableWord nbits w = some i) :
    decode (tableWord nbits w) = .ok i := by
  unfold decodeTableWord at h
  split at h
  · next j hj => rw [hj, Option.some.inj h]
  · cases h

/-- After placing a word the ENGINE has the next turn (notes/assumptions/14.md). -/
theorem engineHasTurn_placeCommand (w : Word) (s : State) : engineHasTurn (placeCommand w s) = true := by
  cases hi : s.inputs <;> cases hh : s.held <;> simp [engineHasTurn, placeCommand, accept, hi, hh]

/-- The turn placed before the environment's events is used up by the ENGINE, so the word runs at the accepted state. -/
theorem placeCommand_afterTurn (w : Word) (s : State) :
    { placeCommand w s with inputs := afterTurn (placeCommand w s).inputs } = accept w s := by
  cases hi : s.inputs <;> simp [placeCommand, accept, afterTurn, hi]

/-- Settles O5, by the completion step being the step of the ENGINE's turn. -/
theorem stepRunsDecodedCommand : Obligations.StepRunsDecodedCommand := by
  refine ⟨fun s i hl he ht hd => ?_, fun s nbits w i hl hd => ?_⟩
  · rw [step_eq_completionStep hl he ht]
    exact completionStep_of_decode hd
  · have turn := step_eq_completionStep (s := placeCommand (tableWord nbits w) s) hl rfl (engineHasTurn_placeCommand _ s)
    rw [placeCommand_afterTurn] at turn
    exact turn.trans (completionStep_of_decode (decode_of_decodeTableWord hd))

/-- Settles O9: the stall rule holds nothing while IDLE, and the word at 0x018 is CMD. -/
theorem idleBlockPerformsAccesses : Obligations.IdleBlockPerformsAccesses := by
  have performs : ∀ (s : State) (a : BusAccess) (rest : List Event), s.cfg.legal = true → s.eng = .idle → s.held = none →
      s.inputs = .access a :: rest → step s = .next (transact a { s with inputs := rest }) := by
    intro s a rest hl he hh hi
    rw [step_eq_present hl hh hi]
    exact congrArg Host.Outcome.next (present_of_not_mustWait (mustWait_of_idle a he))
  refine ⟨performs, fun s a hl he hh hr => step_eq_lift hl he hh hr, fun s w rest hl he hh hi => ?_⟩
  rw [performs s _ rest hl he hh hi]
  exact congrArg Host.Outcome.next (transact_writeReg { s with inputs := rest } w .cmd)

/-! ### The elaboration (00_scope.md R6, R7) -/

/-- The legal values of R6 and the constraints of R7, parameter by parameter. -/
theorem Config.legal_iff (c : Config) : c.legal = true ↔
    (c.fieldW = 8 ∨ c.fieldW = 9) ∧ (c.nSub = 4 ∨ c.nSub = 8) ∧ (1 ≤ c.qReset ∧ c.qReset ≤ 511) ∧
      (1 ≤ c.mapLog2 ∧ c.mapLog2 ≤ 8) ∧ (1 ≤ c.fbW ∧ c.fbW ≤ 65535) ∧ (1 ≤ c.fbH ∧ c.fbH ≤ 65535) ∧
      c.fbW * c.fbH ≤ 262144 ∧ (64 ≤ c.rawCap ∧ c.rawCap ≤ 262144) ∧ c.base % 0x800000 = 0 := by
  simp [Config.legal, and_assoc]

/-- `step` refuses a state for its elaboration alone (60_exceptions.md R182). -/
theorem step_refused_iff (s : State) : step s = .refused .illegalElaboration ↔ s.cfg.legal = false := by
  cases hl : s.cfg.legal with
  | true =>
    obtain ⟨t, ht, -⟩ := nextStep_cases s
    simp [step_of_legal hl, ht]
  | false => simp [step, hl]

/-- Settles O7, by the negation of R6's and R7's bounds. -/
theorem illegalElaborationRefused : Obligations.IllegalElaborationRefused := by
  refine fun s => ⟨step_refused_iff s, ?_⟩
  rw [← Bool.not_eq_true, Config.legal_iff]
  omega

/-- L_MAX is the largest L whose cube PAL_DEPTH holds, in both legal widths (00_scope.md R6). -/
theorem lMax_cube_bounds {c : Config} (hl : c.legal = true) :
    c.lMax * c.lMax * c.lMax ≤ 2 ^ c.fieldW ∧ 2 ^ c.fieldW < (c.lMax + 1) * (c.lMax + 1) * (c.lMax + 1) := by
  obtain ⟨hw | hw, -⟩ := (Config.legal_iff c).1 hl <;> simp [Config.lMax, hw]

/-- An L outside 2..L_MAX ends in PAL_LEVELS (41_palette_lookup_engine.md R112). -/
theorem exec_buildPal_of_illegal_level {l : Nat} {s : State} (h : l < 2 ∨ s.cfg.lMax < l) :
    exec (.buildPal l) s = .next (raiseError .palLevels (BitVec.ofNat 32 l) s) := if_pos h

/-- Settles O34: the error branch of BUILD_PAL, and L_MAX's cubes. -/
theorem buildPalLevelError : Obligations.BuildPalLevelError :=
  ⟨fun _ _ hlvl => exec_buildPal_of_illegal_level hlvl, fun _ hl => lMax_cube_bounds hl⟩

/-- Settles O56, by what a step can be: each of R9's steps keeps the parameters. -/
theorem elaborationNeverChanges : Obligations.ElaborationNeverChanges := by
  intro s t h
  obtain ⟨-, hc⟩ := step_next_cases h
  cases hc with
  | reset rest _ ht => rw [ht, resetEvent_cfg]
  | lift a _ _ ht => rw [ht, transact_cfg]
  | bus a rest _ _ _ ht => rw [ht, transact_cfg]
  | hold a rest _ _ _ ht => rw [ht]
  | command i _ _ hx => exact (exec_next_cases hx).cfg_eq
  | badcmd e _ _ ht => rw [ht, raiseError_cfg]
  | wait _ _ ht => rw [ht]

/-! ### A BUSY ENGINE ends (70_reset_and_hazards.md R200) -/

/-- A run of at most `n` steps from `s` reaches a state with the ENGINE IDLE. -/
def IdleWithin (n : Nat) (s : State) : Prop :=
  ∃ k t, k ≤ n ∧ Sys2Proof.core.run k s = .next t ∧ t.eng = .idle

theorem run_succ_of_step {M : Host.Core} {s t : M.State} (h : M.step s = .next t) (k : Nat) : M.run (k + 1) s = M.run k t := by
  simp only [Host.Core.run, h]

/-- One more step before a run. -/
theorem IdleWithin.of_step {n : Nat} {s t : State} (h : step s = .next t) (ht : IdleWithin n t) : IdleWithin (n + 1) s := by
  obtain ⟨k, u, hk, hr, hu⟩ := ht
  exact ⟨k + 1, u, Nat.succ_le_succ hk, (run_succ_of_step (M := Sys2Proof.core) h k).trans hr, hu⟩

theorem IdleWithin.mono {m n : Nat} {s : State} (hmn : m ≤ n) (h : IdleWithin m s) : IdleWithin n s := by
  obtain ⟨k, t, hk, hr, ht⟩ := h
  exact ⟨k, t, hk.trans hmn, hr, ht⟩

/-- The ENGINE's own turn makes it IDLE in one step. -/
theorem idleWithin_of_engineHasTurn {s : State} (hl : s.cfg.legal = true) (he : s.eng = .busy) (ht : engineHasTurn s = true) :
    IdleWithin 1 s := by
  obtain ⟨t, hx, hi⟩ := completionStep_ends_idle { s with inputs := afterTurn s.inputs }
  exact IdleWithin.of_step ((step_eq_completionStep hl he ht).trans hx) ⟨0, t, le_rfl, rfl, hi⟩

/-- A held access gives the ENGINE its turn, unless reset comes first (70_reset_and_hazards.md R192). -/
theorem engineHasTurn_of_held {s : State} {a : BusAccess} (hh : s.held = some a) (hr : ∀ e ∈ s.inputs, e ≠ .reset) :
    engineHasTurn s = true := by
  unfold engineHasTurn
  split
  · next rest _ hi => exact absurd rfl (hr .reset (by simp [hi]))
  · rfl
  · next hn => simp [hh] at hn
  · rfl

/-- The bound of R200's fairness, by induction on the environment's list: each event is the ENGINE's turn, or an access that
is held, after which the ENGINE has its turn, or one that leaves ENG BUSY and the list shorter. -/
theorem busy_idleWithin (l : List Event) : ∀ s : State, s.cfg.legal = true → s.eng = .busy → s.inputs = l →
    (∀ e ∈ l, e ≠ .reset) → IdleWithin (l.length + 1) s := by
  induction l with
  | nil =>
    intro s hl he hi _
    exact idleWithin_of_engineHasTurn hl he (by cases hh : s.held <;> simp [engineHasTurn, hi, hh])
  | cons e rest ih =>
    intro s hl he hi hr
    have hrest : ∀ e ∈ rest, e ≠ .reset := fun e h => hr e (List.mem_cons_of_mem _ h)
    have atOnce (ht : engineHasTurn s = true) : IdleWithin (rest.length + 1 + 1) s :=
      (idleWithin_of_engineHasTurn hl he ht).mono (Nat.le_add_left 1 _)
    cases hh : s.held with
    | some a => exact atOnce (engineHasTurn_of_held hh (hi ▸ hr))
    | none =>
      cases e with
      | reset => exact absurd rfl (hr .reset List.mem_cons_self)
      | complete => exact atOnce (by simp [engineHasTurn, hi, hh])
      | access a =>
        refine IdleWithin.of_step (step_eq_present hl hh hi) ?_
        cases hw : mustWait a { s with inputs := rest } with
        | true =>
          rw [present_of_mustWait hw]
          have turn := idleWithin_of_engineHasTurn (s := { s with inputs := rest, held := some a }) hl he
            (engineHasTurn_of_held rfl hrest)
          exact turn.mono (Nat.le_add_left 1 _)
        | false =>
          rw [present_of_not_mustWait hw]
          have eng := transact_eng_of_not_stalls (stalls_of_busy_not_mustWait (s := { s with inputs := rest }) he hw)
          exact ih _ (by rwa [transact_cfg]) (eng.trans he) (transact_inputs _ _) hrest

/-- Settles O55, with the environment's list as the measure. -/
theorem busyEngineCompletes : Obligations.BusyEngineCompletes :=
  fun s hl he hr => busy_idleWithin s.inputs s hl he rfl hr

end Sys2Proof.Machine

/-! PROOFS of the family 10_state.md: the registers, the memories and their windows, the result registers and the invariants. -/

namespace Sys2Proof.Machine

/-! ### The address map (20_memory.md R72, R76) -/

/-- The register or element exists in a block elaborated with `c` (20_memory.md R72). -/
def Target.inRange (c : Config) : Target → Prop
  | .reg _ => True
  | .pal j => j < c.palDepth
  | .tile d k => d < c.cellCount ∧ k < 4
  | .fb p => p < c.fbSize
  | .rgb p => p < c.fbSize
  | .raw i => i < c.rawCap
  | .idx i => i < c.rawCap

/-- Whatever is addressed exists (20_memory.md R72). -/
theorem inRange_of_addressed {c : Config} {a : BusAccess} {g : Target} (h : a.addressed c = some g) : g.inRange c := by
  have hr := target_in_range (addressed_eq_target h)
  cases g <;> exact hr

theorem regOfWordIndex_regOffset {n : Nat} {r : Reg} (h : regOfWordIndex n = some r) : regOffset r = 4 * n := by
  unfold regOfWordIndex at h
  split at h <;> cases h <;> rfl

/-- The windows of a legal elaboration fit the address map: no memory is larger than its window (00_scope.md R6, R7). -/
theorem legal_window_bounds {c : Config} (hl : c.legal = true) :
    c.palDepth ≤ 512 ∧ c.cellCount ≤ 65536 ∧ c.fbSize ≤ 262144 ∧ c.rawCap ≤ 262144 := by
  obtain ⟨hfw, -, -, ⟨-, hm⟩, -, -, hfb, ⟨-, hraw⟩, -⟩ := (Config.legal_iff c).1 hl
  refine ⟨?_, ?_, hfb, hraw⟩
  · obtain h | h := hfw <;> simp [Config.palDepth, h]
  · have hw : c.mapWidth ≤ 256 := Nat.pow_le_pow_right (by norm_num) hm
    exact Nat.mul_le_mul hw hw

/-- The offset of an existing register or element names it, and lies in the mapped part of the block (20_memory.md R72). -/
theorem target_offsetOf {c : Config} {g : Target} (hl : c.legal = true) (hg : g.inRange c) :
    target c (offsetOf g) = some g ∧ offsetOf g < 0x600000 ∧ offsetOf g % 4 = 0 := by
  obtain ⟨hpal, hcell, hfb, hraw⟩ := legal_window_bounds hl
  cases g with
  | reg r => exact ⟨target_regOffset c r, by cases r <;> decide, by cases r <;> rfl⟩
  | pal j =>
    have hj : j < c.palDepth := hg
    have e : (0x010000 + 4 * j - 0x010000) / 4 = j := by omega
    refine ⟨?_, by simp only [offsetOf]; omega, by simp only [offsetOf]; omega⟩
    rw [target, offsetOf, if_neg (by omega), if_pos (by omega), e, if_pos hj]
  | tile d k =>
    obtain ⟨hd, hk⟩ : d < c.cellCount ∧ k < 4 := hg
    have e : (0x100000 + 16 * d + 4 * k - 0x100000) / 16 = d := by omega
    have e' : (0x100000 + 16 * d + 4 * k) % 16 / 4 = k := by omega
    refine ⟨?_, by simp only [offsetOf]; omega, by simp only [offsetOf]; omega⟩
    rw [target, offsetOf, if_neg (by omega), if_neg (by omega), if_pos (by omega), e, e', if_pos hd]
  | fb p =>
    have hp : p < c.fbSize := hg
    have e : (0x200000 + 4 * p - 0x200000) / 4 = p := by omega
    refine ⟨?_, by simp only [offsetOf]; omega, by simp only [offsetOf]; omega⟩
    rw [target, offsetOf, if_neg (by omega), if_neg (by omega), if_neg (by omega), if_pos (by omega), e, if_pos hp]
  | rgb p =>
    have hp : p < c.fbSize := hg
    have e : (0x300000 + 4 * p - 0x300000) / 4 = p := by omega
    refine ⟨?_, by simp only [offsetOf]; omega, by simp only [offsetOf]; omega⟩
    rw [target, offsetOf, if_neg (by omega), if_neg (by omega), if_neg (by omega), if_neg (by omega), if_pos (by omega), e,
      if_pos hp]
  | raw i =>
    have hi : i < c.rawCap := hg
    have e : (0x400000 + 4 * i - 0x400000) / 4 = i := by omega
    refine ⟨?_, by simp only [offsetOf]; omega, by simp only [offsetOf]; omega⟩
    rw [target, offsetOf, if_neg (by omega), if_neg (by omega), if_neg (by omega), if_neg (by omega), if_neg (by omega),
      if_pos (by omega), e, if_pos hi]
  | idx i =>
    have hi : i < c.rawCap := hg
    have e : (0x500000 + 4 * i - 0x500000) / 4 = i := by omega
    refine ⟨?_, by simp only [offsetOf]; omega, by simp only [offsetOf]; omega⟩
    rw [target, offsetOf, if_neg (by omega), if_neg (by omega), if_neg (by omega), if_neg (by omega), if_neg (by omega),
      if_neg (by omega), if_pos (by omega), e, if_pos hi]

/-- A word-aligned offset that names something is its offset (20_memory.md R72). -/
theorem offsetOf_of_target {c : Config} {g : Target} {off : Nat} (hword : off % 4 = 0) (h : target c off = some g) :
    offsetOf g = off := by
  by_cases h1 : off < 0x010000
  · rw [target, if_pos h1] at h
    obtain ⟨r, hr, rfl⟩ := Option.map_eq_some_iff.1 h
    have hoff : regOffset r = 4 * (off / 4) := regOfWordIndex_regOffset hr
    rw [offsetOf]
    omega
  by_cases h2 : off < 0x100000
  · rw [target, if_neg h1, if_pos h2] at h
    obtain ⟨-, rfl⟩ := Option.ite_some_none_eq_some.1 h
    rw [offsetOf]
    omega
  by_cases h3 : off < 0x200000
  · rw [target, if_neg h1, if_neg h2, if_pos h3] at h
    obtain ⟨-, rfl⟩ := Option.ite_some_none_eq_some.1 h
    rw [offsetOf]
    omega
  by_cases h4 : off < 0x300000
  · rw [target, if_neg h1, if_neg h2, if_neg h3, if_pos h4] at h
    obtain ⟨-, rfl⟩ := Option.ite_some_none_eq_some.1 h
    rw [offsetOf]
    omega
  by_cases h5 : off < 0x400000
  · rw [target, if_neg h1, if_neg h2, if_neg h3, if_neg h4, if_pos h5] at h
    obtain ⟨-, rfl⟩ := Option.ite_some_none_eq_some.1 h
    rw [offsetOf]
    omega
  by_cases h6 : off < 0x500000
  · rw [target, if_neg h1, if_neg h2, if_neg h3, if_neg h4, if_neg h5, if_pos h6] at h
    obtain ⟨-, rfl⟩ := Option.ite_some_none_eq_some.1 h
    rw [offsetOf]
    omega
  by_cases h7 : off < 0x600000
  · rw [target, if_neg h1, if_neg h2, if_neg h3, if_neg h4, if_neg h5, if_neg h6, if_pos h7] at h
    obtain ⟨-, rfl⟩ := Option.ite_some_none_eq_some.1 h
    rw [offsetOf]
    omega
  · rw [target, if_neg h1, if_neg h2, if_neg h3, if_neg h4, if_neg h5, if_neg h6, if_neg h7] at h
    cases h

/-- Settles O24, by the two directions above. -/
theorem addressMapRoundTrip : Obligations.AddressMapRoundTrip := by
  refine fun c g hl => ⟨fun hg => ?_, fun off h4 h => offsetOf_of_target h4 h⟩
  obtain ⟨ht, hb, -⟩ := target_offsetOf (c := c) (g := g) hl (by cases g <;> exact hg)
  exact ⟨ht, hb⟩

/-- A 32-bit read of an existing register or element. -/
theorem transact_readAt {s : State} {g : Target} (hl : s.cfg.legal = true) (hg : g.inRange s.cfg) :
    transact (readAt (offsetOf g)) s = respond (.readData (readTarget g s).1) (readTarget g s).2 := by
  obtain ⟨ht, hb, h4⟩ := target_offsetOf hl hg
  have ha : (readAt (offsetOf g)).addressed s.cfg = some g := (addressed_word s.cfg _ _ h4 (by omega)).trans ht
  rw [transact, ha]
  rfl

/-- A 32-bit write of an existing register or element. -/
theorem transact_writeAt {s : State} {g : Target} (v : Word) (hl : s.cfg.legal = true) (hg : g.inRange s.cfg) :
    transact (writeAt (offsetOf g) v) s = respond .writeDone (writeTarget g v s) := by
  obtain ⟨ht, hb, h4⟩ := target_offsetOf hl hg
  have ha : (writeAt (offsetOf g) v).addressed s.cfg = some g := (addressed_word s.cfg _ _ h4 (by omega)).trans ht
  rw [transact, ha]
  rfl

/-! ### Reads and writes of the registers (10_state.md section 2) -/

/-- A register is read at its offset in any elaboration, and reading it changes nothing (10_state.md R22, R23). -/
theorem transact_readAt_reg (r : Reg) (s : State) :
    transact (readAt (regOffset r)) s = { s with resp := some (.readData (readReg r s)) } :=
  transact_readReg s 0 r

theorem transact_writeAt_reg (r : Reg) (v : Word) (s : State) :
    transact (writeAt (regOffset r) v) s = { writeReg r v s with resp := some .writeDone } :=
  transact_writeReg s v r

/-- The number of two fields side by side. -/
theorem toNat_append_eq_add {m n : Nat} (x : BitVec m) (y : BitVec n) : (x ++ y).toNat = x.toNat * 2 ^ n + y.toNat := by
  rw [BitVec.toNat_append, ← Nat.shiftLeft_add_eq_or_of_lt y.isLt, Nat.shiftLeft_eq]

theorem fbDimWord_toNat {c : Config} (hl : c.legal = true) : (fbDimWord c).toNat = c.fbW + c.fbH * 2 ^ 16 := by
  obtain ⟨-, -, -, -, ⟨-, hw⟩, ⟨-, hh⟩, -⟩ := (Config.legal_iff c).1 hl
  simp only [fbDimWord, toNat_append_eq_add, BitVec.toNat_ofNat]
  omega

theorem rawCap_toNat {c : Config} (hl : c.legal = true) : (BitVec.ofNat 32 c.rawCap).toNat = c.rawCap := by
  obtain ⟨-, -, -, hraw⟩ := legal_window_bounds hl
  simp only [BitVec.toNat_ofNat]
  omega

theorem ctrlWord_bits (c : Ctrl) :
    (ctrlWord c).getLsbD 0 = c.transpEn ∧ (ctrlWord c).getLsbD 1 = c.irqEn ∧ (ctrlWord c).extractLsb' 2 30 = 0 := by
  obtain ⟨t, i⟩ := c
  cases t <;> cases i <;> decide

/-- R22's registers in the order of their offsets. -/
def allRegs : List Reg :=
  [.id, .params, .fbDim, .rawCapr, .ctrl, .status, .cmd, .errInfo, .xscroll, .yscroll, .qdiv, .sheetDim, .sheetCur, .palCount,
    .lutRgb]

theorem resp_readAt_regs (l : List Reg) (s : State) :
    (l.map regOffset).map (fun off => (transact (readAt off) s).resp) =
      (l.map (fun r => readReg r s)).map (fun v => some (BusResp.readData v)) := by
  simp only [List.map_map]
  exact List.map_congr_left fun r _ => congrArg State.resp (transact_readAt_reg r s)

theorem readReg_reset : allRegs.map (fun r => readReg r State.reset) =
    [0x544D4231, 0x00006846, 0x00080008, 0x00001000, 0, 0, 0, 0, 0, 0, 64, 0, 0, 0, 0] := by decide

/-- Settles O12: each offset is its register's, and the words of FB_DIM, RAW_CAPR and CTRL are computed. -/
theorem registersReadAsStored : Obligations.RegistersReadAsStored := by
  refine ⟨fun s hl => ⟨transact_readAt_reg .id s, ⟨_, transact_readAt_reg .fbDim s, fbDimWord_toNat hl⟩,
    ⟨_, transact_readAt_reg .rawCapr s, rawCap_toNat hl⟩, ⟨_, transact_readAt_reg .ctrl s, ctrlWord_bits s.ctrl⟩,
    transact_readAt_reg .cmd s, transact_readAt_reg .errInfo s, transact_readAt_reg .xscroll s, transact_readAt_reg .yscroll s,
    transact_readAt_reg .qdiv s, transact_readAt_reg .sheetDim s, transact_readAt_reg .sheetCur s,
    transact_readAt_reg .palCount s, transact_readAt_reg .lutRgb s⟩, ?_⟩
  rw [← readReg_reset]
  exact resp_readAt_regs allRegs State.reset

theorem statusWord_getLsbD (e : Eng) (t : Status) :
    (statusWord e t).getLsbD 0 = busyFlag e ∧ (statusWord e t).getLsbD 1 = t.done ∧ (statusWord e t).getLsbD 2 = t.err ∧
      (statusWord e t).getLsbD 16 = t.sheetValid ∧ (statusWord e t).getLsbD 17 = t.palValid := by
  simp only [statusWord, BitVec.getLsbD_append]
  simp

/-- STATUS as a number (10_state.md R29). -/
theorem statusWord_toNat (e : Eng) (t : Status) :
    (statusWord e t).toNat = (busyFlag e).toNat + 2 * t.done.toNat + 2 ^ 2 * t.err.toNat + 2 ^ 8 * t.errcode.toNat +
      2 ^ 16 * t.sheetValid.toNat + 2 ^ 17 * t.palValid.toNat := by
  simp only [statusWord, toNat_append_eq_add, BitVec.toNat_ofBool, BitVec.toNat_ofNat]
  omega

theorem statusWord_fields (e : Eng) (t : Status) :
    (statusWord e t).extractLsb' 3 5 = 0 ∧ (statusWord e t).extractLsb' 8 4 = t.errcode ∧
      (statusWord e t).extractLsb' 12 4 = 0 ∧ (statusWord e t).extractLsb' 18 14 = 0 := by
  have hbusy := (busyFlag e).toNat_le
  have hdone := t.done.toNat_le
  have herr := t.err.toNat_le
  have hcode := t.errcode.isLt
  have hsheet := t.sheetValid.toNat_le
  have hpal := t.palValid.toNat_le
  have field (start len : Nat) (v : BitVec len) (h : (statusWord e t).toNat / 2 ^ start % 2 ^ len = v.toNat) :
      (statusWord e t).extractLsb' start len = v := by
    apply BitVec.eq_of_toNat_eq
    rw [BitVec.extractLsb'_toNat, Nat.shiftRight_eq_div_pow, h]
  rw [statusWord_toNat] at field
  have zero (len : Nat) : (0 : BitVec len).toNat = 0 := by simp
  exact ⟨field 3 5 0 (by rw [zero]; omega), field 8 4 _ (by omega), field 12 4 0 (by rw [zero]; omega),
    field 18 14 0 (by rw [zero]; omega)⟩

/-- Settles O13, bit by bit of the STATUS word. -/
theorem statusReadBits : Obligations.StatusReadBits := by
  intro s
  obtain ⟨hbusy, hdone, herr, hsheet, hpal⟩ := statusWord_getLsbD s.eng s.status
  obtain ⟨h3, hcode, h12, h18⟩ := statusWord_fields s.eng s.status
  refine ⟨_, transact_readAt_reg .status s, ?_, hdone, herr, h3, hcode, h12, hsheet, hpal, h18⟩
  simp only [readReg, hbusy, busyFlag, decide_eq_true_eq]

theorem paramsWord_toNat {c : Config} (hl : c.legal = true) :
    (paramsWord c).toNat = c.mapLog2 + c.nSub * 2 ^ 4 + c.fieldW * 2 ^ 8 + c.lMax * 2 ^ 12 := by
  obtain ⟨hfw, hn, -, ⟨-, hm⟩, -⟩ := (Config.legal_iff c).1 hl
  have hlm : c.lMax < 16 := by unfold Config.lMax; split <;> omega
  simp only [paramsWord, toNat_append_eq_add, BitVec.toNat_ofNat]
  omega

/-- Settles O14: PARAMS is the word of its four fields, and a write to it is ignored. -/
theorem paramsReportTheElaboration : Obligations.ParamsReportTheElaboration :=
  ⟨fun s hl => ⟨_, transact_readAt_reg .params s, paramsWord_toNat hl, fun v => transact_writeAt_reg .params v s⟩,
    by decide, by decide⟩

/-- Settles O16: R22's read-only registers, each at its offset. -/
theorem readOnlyRegisterWritesIgnored : Obligations.ReadOnlyRegisterWritesIgnored := by
  intro s v off h
  simp only [List.mem_cons, List.not_mem_nil, or_false] at h
  obtain rfl | rfl | rfl | rfl | rfl | rfl | rfl | rfl := h
  · exact transact_writeAt_reg .id v s
  · exact transact_writeAt_reg .params v s
  · exact transact_writeAt_reg .fbDim v s
  · exact transact_writeAt_reg .rawCapr v s
  · exact transact_writeAt_reg .errInfo v s
  · exact transact_writeAt_reg .sheetCur v s
  · exact transact_writeAt_reg .palCount v s
  · exact transact_writeAt_reg .lutRgb v s

/-- CTRL keeps two bits of what is written (10_state.md R28). -/
theorem ctrlWord_ctrlOfWord (v : Word) : ctrlWord (ctrlOfWord v) = v &&& 0x3 := by
  apply BitVec.eq_of_getLsbD_eq
  intro i hi
  simp only [ctrlWord, ctrlOfWord, BitVec.getLsbD_append, BitVec.getLsbD_and]
  rcases i with _ | _ | i <;> simp [BitVec.getLsbD_ofNat, Nat.testBit_succ]

/-- Cutting to `w` bits and extending again keeps the low `w` bits. -/
theorem setWidth_setWidth_eq_and (v : Word) {w : Nat} (hw : w ≤ 32) :
    (v.setWidth w).setWidth 32 = v &&& BitVec.ofNat 32 (2 ^ w - 1) := by
  have hp : 2 ^ w ≤ 2 ^ 32 := Nat.pow_le_pow_right (by norm_num) hw
  apply BitVec.eq_of_toNat_eq
  have hm : (BitVec.ofNat 32 (2 ^ w - 1)).toNat = 2 ^ w - 1 := by simp only [BitVec.toNat_ofNat]; omega
  rw [BitVec.toNat_and, hm, Nat.and_two_pow_sub_one_eq_mod]
  simp only [BitVec.toNat_setWidth]
  exact Nat.mod_eq_of_lt (lt_of_lt_of_le (Nat.mod_lt _ (by positivity)) hp)

/-- What a register reads after a write to it. -/
theorem resp_readAt_writeAt_reg (r : Reg) (v : Word) (s : State) :
    (transact (readAt (regOffset r)) (transact (writeAt (regOffset r) v) s)).resp =
      some (.readData (readReg r { writeReg r v s with resp := some .writeDone })) := by
  rw [transact_readAt_reg, transact_writeAt_reg]

/-- Settles O15, one register at a time. -/
theorem writableRegistersStoreAndReadBack : Obligations.WritableRegistersStoreAndReadBack := by
  intro s v
  have ctrl := resp_readAt_writeAt_reg .ctrl v s
  have qdiv := resp_readAt_writeAt_reg .qdiv v s
  simp only [readReg, writeReg, ctrlWord_ctrlOfWord] at ctrl
  simp only [readReg, writeReg, setWidth_setWidth_eq_and v (w := 9) (by norm_num)] at qdiv
  exact ⟨transact_writeAt_reg .ctrl v s, ctrl, transact_writeAt_reg .xscroll v s, resp_readAt_writeAt_reg .xscroll v s,
    transact_writeAt_reg .yscroll v s, resp_readAt_writeAt_reg .yscroll v s, transact_writeAt_reg .qdiv v s, qdiv,
    transact_writeAt_reg .sheetDim v s, resp_readAt_writeAt_reg .sheetDim v s⟩

/-! ### The windows (20_memory.md R74-R77, 10_state.md R47) -/

/-- The existing bits of part `k` are those below CW (20_memory.md R76). -/
theorem partMask_getLsbD (c : Config) (k : Nat) {b : Nat} (hb : b < 32) :
    (c.partMask k).getLsbD b = decide (32 * k + b < c.cw) := by
  simp only [Config.partMask, BitVec.getLsbD_ofNat, Nat.testBit_two_pow_sub_one, hb, decide_true, Bool.true_and,
    decide_eq_decide]
  omega

/-- Part `k` has a bit exactly when CW reaches it (20_memory.md R76). -/
theorem partMask_ne_zero {c : Config} {k : Nat} (h : 32 * k < c.cw) : c.partMask k ≠ 0 := by
  intro h0
  have hbit := partMask_getLsbD c k (b := 0) (by norm_num)
  rw [h0] at hbit
  simp at hbit
  omega

/-- FIELD_W bits of 9, as arithmetic (10_state.md R43). -/
theorem truncField_toNat {c : Config} (hw : c.fieldW ≤ 9) (v : BitVec 9) :
    (c.truncField v).toNat = v.toNat % 2 ^ c.fieldW := by
  have hp : 2 ^ c.fieldW ≤ 2 ^ 9 := Nat.pow_le_pow_right (by norm_num) hw
  have hs : c.sent.toNat = 2 ^ c.fieldW - 1 := by
    simp only [Config.sent, BitVec.toNat_ofNat]
    omega
  rw [Config.truncField, BitVec.toNat_and, hs, Nat.and_two_pow_sub_one_eq_mod]

theorem legal_fieldW_le {c : Config} (hl : c.legal = true) : c.fieldW ≤ 9 := by
  obtain ⟨h | h, -⟩ := (Config.legal_iff c).1 hl <;> omega

/-- A draw cut to FIELD_W bits on the bus (10_state.md R47, 20_memory.md R75). -/
theorem truncField_setWidth {c : Config} (hw : c.fieldW ≤ 9) (v : Word) :
    (c.truncField (v.setWidth 9)).setWidth 32 = v &&& BitVec.ofNat 32 (2 ^ c.fieldW - 1) := by
  have hp : 2 ^ c.fieldW ∣ 2 ^ 9 := Nat.pow_dvd_pow 2 hw
  rw [← setWidth_setWidth_eq_and v (by omega)]
  apply BitVec.eq_of_toNat_eq
  simp only [BitVec.toNat_setWidth, truncField_toNat hw, Nat.mod_mod_of_dvd _ hp]

/-- A read of a written element through its window makes no draw (10_state.md R47). -/
theorem transact_readAt_written {s : State} {g : Target} {x : Word} (hl : s.cfg.legal = true) (hg : g.inRange s.cfg)
    (hr : readTarget g s = (x, s)) : transact (readAt (offsetOf g)) s = { s with resp := some (.readData x) } := by
  rw [transact_readAt hl hg, hr]
  rfl

/-- A read of an unwritten element through its window: the word is the draw's, one draw is counted (10_state.md R47). -/
theorem transact_readAt_unwritten {s : State} {g : Target} {x : Word} (hl : s.cfg.legal = true) (hg : g.inRange s.cfg)
    (hr : readTarget g s = (x, s.drawn)) :
    transact (readAt (offsetOf g)) s = { s with draws := s.draws + 1, resp := some (.readData x) } := by
  rw [transact_readAt hl hg, hr]
  rfl

/-- Settles O23, window by window. -/
theorem unwrittenReadIsFreshDraw : Obligations.UnwrittenReadIsFreshDraw := by
  intro s p hl
  refine ⟨fun hp hn => transact_readAt_unwritten (g := .raw p) hl hp ?_,
    fun hp hn => transact_readAt_unwritten (g := .idx p) hl hp ?_,
    fun hp hn => transact_readAt_unwritten (g := .fb p) hl hp ?_,
    fun hp hn => transact_readAt_unwritten (g := .pal p) hl hp ?_,
    fun hp hn => transact_readAt_unwritten (g := .rgb p) hl hp ?_,
    fun k hk hbit hp hn => transact_readAt_unwritten (g := .tile p k) hl ⟨hp, by omega⟩ ?_,
    fun hp hn => transact_readAt_unwritten (g := .tile p 3) hl ⟨hp, by omega⟩ ?_⟩
  · rw [readTarget, readRaw, readElem_unwritten s hn, BitVec.setWidth_eq]
  · rw [readTarget, readIdx, readElem_unwritten s hn]
    exact Prod.ext (setWidth_setWidth_eq_and _ (w := 3) (by decide)) rfl
  · rw [readTarget, readFb, readElem_unwritten s hn]
    exact Prod.ext (truncField_setWidth (legal_fieldW_le hl) _) rfl
  · rw [readTarget, readPal, readElem_unwritten s hn]
    exact Prod.ext (setWidth_setWidth_eq_and _ (w := 24) (by decide)) rfl
  · rw [readTarget, readRgb, readElem_unwritten s hn]
    exact Prod.ext (setWidth_setWidth_eq_and _ (w := 24) (by decide)) rfl
  · rw [readTarget, if_pos hk, readTilePart, if_neg (partMask_ne_zero hbit), readElem_unwritten s hn, BitVec.setWidth_eq]
  · rw [readTarget, if_neg (by norm_num), readTileDb, readElem_unwritten s hn]
    exact Prod.ext (setWidth_setWidth_eq_and _ (w := 2) (by decide)) rfl

/-- A written part, or one with no bits, reads its value and makes no draw (20_memory.md R76). -/
theorem readTilePart_of_writtenPart {s : State} {c k : Nat} {x : Word} (h : writtenPart s c k = some x) :
    readTilePart c k s = (x, s) := by
  unfold writtenPart at h
  unfold readTilePart
  split_ifs at h ⊢ with h0
  · rw [Option.some.inj h]
  · obtain ⟨v, hv, rfl⟩ := Option.map_eq_some_iff.1 h
    rw [readElem_written s hv]

theorem writeTilePart_of_no_bits {c k : Nat} {v : Word} {s : State} (h : s.cfg.partMask k = 0) :
    writeTilePart c k v s = s := if_pos h

theorem writeTilePart_tileColor {c k : Nat} {v : Word} {s : State} (h : s.cfg.partMask k ≠ 0) :
    (writeTilePart c k v s).tileColor = memSet s.tileColor (3 * c + k) (v &&& s.cfg.partMask k) :=
  congrArg State.tileColor (if_neg h)

/-- A written part holds the existing bits of what was written (20_memory.md R76). -/
theorem writtenPart_writeTilePart_same (c k : Nat) (v : Word) (s : State) :
    writtenPart (writeTilePart c k v s) c k = some (v &&& s.cfg.partMask k) := by
  unfold writtenPart
  rw [writeTilePart_cfg]
  split_ifs with h0
  · simp [h0]
  · simp [writeTilePart_tileColor h0, BitVec.and_assoc]

/-- Every other part keeps its value and its mark (20_memory.md R76). -/
theorem writtenPart_writeTilePart_other {c k d j : Nat} (v : Word) (s : State) (hk : k < 3) (hj : j < 3)
    (h : d ≠ c ∨ j ≠ k) : writtenPart (writeTilePart c k v s) d j = writtenPart s d j := by
  by_cases h0 : s.cfg.partMask k = 0
  · rw [writeTilePart_of_no_bits h0]
  · have hne : 3 * d + j ≠ 3 * c + k := by omega
    simp only [writtenPart, writeTilePart_cfg, writeTilePart_tileColor h0, memGet_memSet_other _ _ hne]

/-- A write to part `k` changes the colour words alone. -/
theorem writeTilePart_frame (c k : Nat) (v : Word) (s : State) :
    writeTilePart c k v s = { s with tileColor := (writeTilePart c k v s).tileColor } := by
  unfold writeTilePart
  split <;> rfl

/-- A read of written databits (20_memory.md R76). -/
theorem readTarget_tileDb_written {s : State} {c : Nat} {x : BitVec 2} (h : memGet s.tileDb c = some x) :
    readTarget (.tile c 3) s = (x.setWidth 32, s) := by
  rw [readTarget, if_neg (by norm_num), readTileDb, readElem_written s h]

/-- A write of part `k` of a cell through the window. -/
theorem transact_writeAt_tilePart {s : State} {c k : Nat} (v : Word) (hl : s.cfg.legal = true) (hc : c < s.cfg.cellCount)
    (hk : k < 3) :
    transact (writeAt (0x100000 + 16 * c + 4 * k) v) s = respond .writeDone (writeTilePart c k v s) := by
  have hg : (Target.tile c k).inRange s.cfg := ⟨hc, by omega⟩
  refine (transact_writeAt v hl hg).trans ?_
  rw [writeTarget, if_pos hk]

/-- A write of the databits of a cell through the window. -/
theorem transact_writeAt_tileDb {s : State} {c : Nat} (v : Word) (hl : s.cfg.legal = true) (hc : c < s.cfg.cellCount) :
    transact (writeAt (0x100000 + 16 * c + 12) v) s = respond .writeDone (writeTileDb c v s) := by
  have hg : (Target.tile c 3).inRange s.cfg := ⟨hc, by omega⟩
  refine (transact_writeAt v hl hg).trans ?_
  rw [writeTarget, if_neg (by norm_num)]

theorem writtenPart_respond (r : BusResp) (s : State) (c k : Nat) : writtenPart (respond r s) c k = writtenPart s c k := rfl

/-- Settles O22: a write of one word of a cell and the read of it. -/
theorem tileWindowWords : Obligations.TileWindowWords := by
  refine fun s c k v hl hc => ⟨fun hk => ⟨_, transact_writeAt_tilePart v hl hc hk, ?_, ⟨v &&& s.cfg.partMask k, ?_, ?_, ?_⟩, ?_⟩,
    ⟨_, transact_writeAt_tileDb v hl hc, rfl, memGet_memSet_same _ _ _, ?_, ?_⟩⟩
  · exact congrArg (respond .writeDone) (writeTilePart_frame c k v s)
  · rw [writtenPart_respond, writtenPart_writeTilePart_same]
  · refine transact_readAt_written (g := .tile c k) (by simpa using hl) ⟨by simpa using hc, by omega⟩ ?_
    rw [readTarget, if_pos hk]
    exact readTilePart_of_writtenPart (by rw [writtenPart_respond, writtenPart_writeTilePart_same])
  · intro b hb
    rw [BitVec.getLsbD_and, partMask_getLsbD s.cfg k hb]
    rfl
  · intro d j hj h
    rw [writtenPart_respond, writtenPart_writeTilePart_other v s hk hj h]
  · refine transact_readAt_written (g := .tile c 3) hl ⟨hc, by omega⟩ ?_
    have hx : (v.setWidth 2).setWidth 32 = v &&& 0x3 := setWidth_setWidth_eq_and v (by decide)
    rw [← hx]
    exact readTarget_tileDb_written (memGet_memSet_same s.tileDb c (v.setWidth 2))
  · exact fun d hd => memGet_memSet_other s.tileDb (v.setWidth 2) hd

/-- Settles O26: a bus error changes the response alone, and a read the count of draws too. -/
theorem hostReadsHaveNoSideEffect : Obligations.HostReadsHaveNoSideEffect := by
  intro s a hw
  cases transact_cases a s with
  | busError _ ht => rw [ht]; rfl
  | read g _ _ ht =>
    have hf : (readTarget g s).2 = { s with draws := (readTarget g s).2.draws } := readTarget_frame g s
    rw [ht, hf]
    rfl
  | write g _ hw' _ => rw [hw] at hw'; cases hw'

/-! ### Packed sub-colours (42_tile_map_store.md R133, R134) -/

/-- A packed word has FIELD_W bits for each of its sub-colours. -/
theorem packColor_lt {c : Config} {subs : List Nat} (h : ∀ x ∈ subs, x < 2 ^ c.fieldW) :
    packColor c subs < 2 ^ (subs.length * c.fieldW) := by
  induction subs with
  | nil => simp [packColor]
  | cons x xs ih =>
    have hx : x < 2 ^ c.fieldW := h x List.mem_cons_self
    have hxs := ih fun y hy => h y (List.mem_cons_of_mem _ hy)
    calc x + packColor c xs * 2 ^ c.fieldW < (packColor c xs + 1) * 2 ^ c.fieldW := by rw [Nat.add_mul]; omega
      _ ≤ 2 ^ (xs.length * c.fieldW) * 2 ^ c.fieldW := Nat.mul_le_mul_right _ hxs
      _ = 2 ^ ((x :: xs).length * c.fieldW) := by rw [List.length_cons, Nat.succ_mul, Nat.pow_add]

/-- The k-th field of a packed word is the k-th sub-colour (42_tile_map_store.md R134). -/
theorem packColor_field {c : Config} {subs : List Nat} (h : ∀ x ∈ subs, x < 2 ^ c.fieldW) (k : Nat) :
    packColor c subs / 2 ^ (k * c.fieldW) % 2 ^ c.fieldW = subs.getD k 0 := by
  induction subs generalizing k with
  | nil => simp [packColor]
  | cons x xs ih =>
    have hx : x < 2 ^ c.fieldW := h x List.mem_cons_self
    have hpos : 0 < 2 ^ c.fieldW := by positivity
    cases k with
    | zero => simp [packColor, Nat.mod_eq_of_lt hx]
    | succ k =>
      have hshift : (x + packColor c xs * 2 ^ c.fieldW) / 2 ^ c.fieldW = packColor c xs := by
        rw [Nat.add_mul_div_right _ _ hpos, Nat.div_eq_of_lt hx, Nat.zero_add]
      rw [packColor, Nat.succ_mul, Nat.add_comm (k * c.fieldW), Nat.pow_add, ← Nat.div_div_eq_div_mul, hshift,
        ih fun y hy => h y (List.mem_cons_of_mem _ hy)]
      rfl

/-- Sub-colour extraction, as arithmetic (42_tile_map_store.md R133). -/
theorem sub_toNat {c : Config} (hw : c.fieldW ≤ 9) (color : BitVec 96) (k : Nat) :
    (sub c color k).toNat = color.toNat / 2 ^ (k * c.fieldW) % 2 ^ c.fieldW := by
  have hp : 2 ^ c.fieldW ∣ 2 ^ 9 := Nat.pow_dvd_pow 2 hw
  rw [sub, truncField_toNat hw, BitVec.toNat_setWidth, BitVec.toNat_ushiftRight, Nat.shiftRight_eq_div_pow,
    Nat.mod_mod_of_dvd _ hp]

/-- The colour word of a legal elaboration fits its three parts (00_scope.md R6). -/
theorem legal_cw_le {c : Config} (hl : c.legal = true) : c.nSub * c.fieldW ≤ 72 := by
  obtain ⟨hw, hn, -⟩ := (Config.legal_iff c).1 hl
  have hn8 : c.nSub ≤ 8 := by omega
  have hw9 : c.fieldW ≤ 9 := by omega
  exact Nat.mul_le_mul hn8 hw9

/-- Settles O41, by the field of a packed word; R134's words are computed. -/
theorem packedSubColoursExtract : Obligations.PackedSubColoursExtract := by
  refine ⟨fun c subs hl hlen hsubs k _ => ?_, by decide, by decide, by decide, by decide⟩
  have hfit : packColor c subs < 2 ^ 96 := by
    have hcw : subs.length * c.fieldW ≤ 96 := by have := legal_cw_le hl; rw [hlen]; omega
    exact lt_of_lt_of_le (packColor_lt hsubs) (Nat.pow_le_pow_right (by norm_num) hcw)
  rw [sub_toNat (legal_fieldW_le hl), BitVec.toNat_ofNat, Nat.mod_eq_of_lt hfit, packColor_field hsubs]

/-! ### What a command can change (10_state.md R49, R51; 60_exceptions.md R171, R173) -/

/-- `t` is `s` but for what commands write: ENG, STATUS, ERR_INFO, the result registers, the memories of results and the count
of draws. -/
def SameButResults (s t : State) : Prop :=
  t = { s with
    eng := t.eng, status := t.status, errInfo := t.errInfo, sheetCur := t.sheetCur, palCount := t.palCount,
    lutRgb := t.lutRgb, idx := t.idx, fb := t.fb, rgb := t.rgb, pal := t.pal, draws := t.draws }

theorem SameButResults.trans {s t u : State} (h1 : SameButResults s t) (h2 : SameButResults t u) : SameButResults s u := by
  unfold SameButResults at *
  rw [h2, h1]

theorem SameButDraws.sameButResults {s t : State} (h : SameButDraws s t) : SameButResults s t := by
  unfold SameButResults
  rw [h]

theorem SameButFb.sameButResults {s t : State} (h : SameButFb s t) : SameButResults s t := by
  unfold SameButResults
  rw [h]

/-- What a successful command has done before it completes. -/
theorem SameButResults.complete {s t : State} (h : SameButResults s t) : SameButResults s (complete t) := h.trans rfl

theorem ExecCase.sameButResults {i : Instr} {s t : State} (h : ExecCase i s t) : SameButResults s t := by
  cases h with
  | error _ _ e w s' _ hs => exact hs.sameButResults.trans rfl
  | decode =>
    have loop : SameButResults s (decodeAll s) := by unfold SameButResults; rw [decodeAll_frame s]
    have install : SameButResults (decodeAll s) (installSheet (decodeAll s)) := rfl
    exact (loop.trans install).complete
  | buildPal l =>
    have loop : SameButResults s (buildEntries l s) := by unfold SameButResults; rw [buildEntries_frame l s]
    have install : SameButResults (buildEntries l s) (installPalette l (buildEntries l s)) := rfl
    exact (loop.trans install).complete
  | render => exact (renderTiles_frame s).sameButResults.complete
  | expand =>
    have loop (n : Nat) (vs : List (BitVec 9)) (u : State) : SameButResults u (forUpTo n (expandPixel vs) u) := by
      unfold SameButResults
      rw [expandPixels_frame]
    exact ((readFbRun_frame s.cfg.fbSize s).sameButResults.trans (loop _ _ _)).complete
  | lookup j =>
    have loop : SameButResults s (lookupEntry j s) := by unfold SameButResults; rw [lookupEntry_frame j s]
    exact loop.complete

/-- The sheet, with the elaboration it has to fit (40_sprite_sheet_decoder.md R102). -/
def State.sheetView (s : State) : Config × Memory 3 × Word × Bool := (s.cfg, s.idx, s.sheetCur, s.status.sheetValid)

/-- The palette, with the elaboration it has to fit (41_palette_lookup_engine.md R112). -/
def State.paletteView (s : State) : Config × Memory 24 × BitVec 10 × Bool := (s.cfg, s.pal, s.palCount, s.status.palValid)

theorem sheetView_eq_iff {s t : State} : t.sheetView = s.sheetView ↔
    t.cfg = s.cfg ∧ t.idx = s.idx ∧ t.sheetCur = s.sheetCur ∧ t.status.sheetValid = s.status.sheetValid := by
  simp [State.sheetView]

theorem paletteView_eq_iff {s t : State} : t.paletteView = s.paletteView ↔
    t.cfg = s.cfg ∧ t.pal = s.pal ∧ t.palCount = s.palCount ∧ t.status.palValid = s.status.palValid := by
  simp [State.paletteView]

/-- Only DECODE changes the sheet (10_state.md R37, R41). -/
theorem ExecCase.sheetView_eq {i : Instr} {s t : State} (h : ExecCase i s t) (hi : i ≠ .decode) :
    t.sheetView = s.sheetView := by
  cases h with
  | error _ _ e w s' _ hs => rw [hs]; rfl
  | decode => exact absurd rfl hi
  | buildPal l => rw [buildEntries_frame]; rfl
  | render => rw [renderTiles_frame s]; rfl
  | expand => rw [expandPixels_frame, readFbRun_frame _ s]; rfl
  | lookup j => rw [lookupEntry_frame]; rfl

/-- Only BUILD_PAL changes the palette (10_state.md R38, R45). -/
theorem ExecCase.paletteView_eq {i : Instr} {s t : State} (h : ExecCase i s t) (hi : ∀ l, i ≠ .buildPal l) :
    t.paletteView = s.paletteView := by
  cases h with
  | error _ _ e w s' _ hs => rw [hs]; rfl
  | decode => rw [decodeAll_frame]; rfl
  | buildPal l => exact absurd rfl (hi l)
  | render => rw [renderTiles_frame s]; rfl
  | expand => rw [expandPixels_frame, readFbRun_frame _ s]; rfl
  | lookup j => rw [lookupEntry_frame]; rfl

/-- Only RENDER changes FB (10_state.md R43). -/
theorem ExecCase.fb_eq {i : Instr} {s t : State} (h : ExecCase i s t) (hi : i ≠ .render) : t.fb = s.fb := by
  cases h with
  | error _ _ e w s' _ hs => rw [hs]; rfl
  | decode => rw [decodeAll_frame]; rfl
  | buildPal l => rw [buildEntries_frame]; rfl
  | render => exact absurd rfl hi
  | expand => rw [expandPixels_frame, readFbRun_frame _ s]; rfl
  | lookup j => rw [lookupEntry_frame]; rfl

/-- Only EXPAND changes RGB (10_state.md R44). -/
theorem ExecCase.rgb_eq {i : Instr} {s t : State} (h : ExecCase i s t) (hi : i ≠ .expand) : t.rgb = s.rgb := by
  cases h with
  | error _ _ e w s' _ hs => rw [hs]; rfl
  | decode => rw [decodeAll_frame]; rfl
  | buildPal l => rw [buildEntries_frame]; rfl
  | render => rw [renderTiles_frame s]; rfl
  | expand => exact absurd rfl hi
  | lookup j => rw [lookupEntry_frame]; rfl

/-- Only LOOKUP changes LUT_RGB (10_state.md R39). -/
theorem ExecCase.lutRgb_eq {i : Instr} {s t : State} (h : ExecCase i s t) (hi : ∀ j, i ≠ .lookup j) : t.lutRgb = s.lutRgb := by
  cases h with
  | error _ _ e w s' _ hs => rw [hs]; rfl
  | decode => rw [decodeAll_frame]; rfl
  | buildPal l => rw [buildEntries_frame]; rfl
  | render => rw [renderTiles_frame s]; rfl
  | expand => rw [expandPixels_frame, readFbRun_frame _ s]; rfl
  | lookup j => exact absurd rfl (hi j)

/-- Settles O51, by what each way to end can change. -/
theorem commandsWriteOnlyTheirOwnResults : Obligations.CommandsWriteOnlyTheirOwnResults := by
  intro i s t h
  have hc := exec_next_cases h
  exact ⟨hc.sameButResults, fun hi => (sheetView_eq_iff.1 (hc.sheetView_eq hi)).2,
    fun hi => (paletteView_eq_iff.1 (hc.paletteView_eq hi)).2, hc.fb_eq, hc.rgb_eq, hc.lutRgb_eq⟩

/-- What commands alone write and the HOST reads: the sheet, the palette and LUT_RGB (10_state.md R23, R49). -/
def State.resultView (s : State) : (Config × Memory 3 × Word × Bool) × (Config × Memory 24 × BitVec 10 × Bool) × BitVec 24 :=
  (s.sheetView, s.paletteView, s.lutRgb)

theorem resultView_eq_iff {s t : State} : t.resultView = s.resultView ↔
    t.sheetView = s.sheetView ∧ t.paletteView = s.paletteView ∧ t.lutRgb = s.lutRgb := by
  simp [State.resultView]

/-- How STATUS is left: by an error with the rest of the outcome as it was, or by a success that raised none
(60_exceptions.md R171, R173). -/
theorem ExecCase.status_cases {i : Instr} {s t : State} (h : ExecCase i s t) :
    (∃ e, t.status = statusFailed e s.status ∧ t.resultView = s.resultView) ∨
      (t.status.done = true ∧ t.status.err = s.status.err ∧ t.status.errcode = s.status.errcode) := by
  cases h with
  | error _ _ e w s' _ hs => exact .inl ⟨e, by rw [hs]; rfl, by rw [hs]; rfl⟩
  | decode => exact .inr ⟨rfl, by rw [decodeAll_frame]; rfl, by rw [decodeAll_frame]; rfl⟩
  | buildPal l => exact .inr ⟨rfl, by rw [buildEntries_frame]; rfl, by rw [buildEntries_frame]; rfl⟩
  | render => exact .inr ⟨rfl, by rw [renderTiles_frame s]; rfl, by rw [renderTiles_frame s]; rfl⟩
  | expand =>
    exact .inr ⟨rfl, by rw [expandPixels_frame, readFbRun_frame _ s]; rfl, by rw [expandPixels_frame, readFbRun_frame _ s]; rfl⟩
  | lookup j => exact .inr ⟨rfl, by rw [lookupEntry_frame]; rfl, by rw [lookupEntry_frame]; rfl⟩

/-- Every command ends with DONE = 1 (60_exceptions.md R170). -/
theorem ExecCase.done_eq {i : Instr} {s t : State} (h : ExecCase i s t) : t.status.done = true := by
  obtain ⟨e, hs, -⟩ | ⟨hd, -⟩ := h.status_cases
  · rw [hs]; rfl
  · exact hd

/-- Settles O49, by the ways a command can end. -/
theorem everyCommandEnds : Obligations.EveryCommandEnds := by
  intro i s
  obtain ⟨t, ht, hc⟩ := exec_cases i s
  exact ⟨t, ht, hc.eng_idle, hc.done_eq⟩

/-- A set valid flag stays set through every command (10_state.md R51). -/
theorem ExecCase.valid_flags {i : Instr} {s t : State} (h : ExecCase i s t) :
    (s.status.sheetValid = true → t.status.sheetValid = true) ∧ (s.status.palValid = true → t.status.palValid = true) := by
  constructor
  · intro hv
    by_cases hi : i = .decode
    · subst hi
      cases h with
      | error _ _ e w s' _ hs => rw [hs]; exact hv
      | decode => rfl
    · obtain ⟨-, -, -, hsheet⟩ := sheetView_eq_iff.1 (h.sheetView_eq hi)
      rw [hsheet, hv]
  · intro hv
    by_cases hi : ∃ l, i = .buildPal l
    · obtain ⟨l, rfl⟩ := hi
      cases h with
      | error _ _ e w s' _ hs => rw [hs]; exact hv
      | buildPal => rfl
    · obtain ⟨-, -, -, hpal⟩ := paletteView_eq_iff.1 (h.paletteView_eq fun l hl => hi ⟨l, hl⟩)
      rw [hpal, hv]

/-! ### What a HOST access can change (20_memory.md R74, R78; 10_state.md R23) -/

/-- `t` is `s` but for the memories the HOST writes, the count of draws and the response. -/
def SameButWindows (s t : State) : Prop :=
  t = { s with
    raw := t.raw, tileColor := t.tileColor, tileDb := t.tileDb, fb := t.fb, draws := t.draws, resp := t.resp }

theorem SameButDraws.sameButWindows {s t : State} (h : SameButDraws s t) (r : BusResp) : SameButWindows s (respond r t) := by
  unfold SameButWindows
  rw [h]
  rfl

theorem writeTarget_frame {g : Target} (hg : ∀ r, g ≠ .reg r) (v : Word) (s : State) (r : BusResp) :
    SameButWindows s (respond r (writeTarget g v s)) := by
  cases g with
  | reg r => exact absurd rfl (hg r)
  | tile c k =>
    simp only [writeTarget]
    split
    · unfold SameButWindows
      rw [writeTilePart_frame]
      rfl
    · rfl
  | _ => rfl

/-- A HOST access writes a register, or changes nothing but windows, draws and the response. -/
theorem transact_reg_or_windows (a : BusAccess) (s : State) :
    (∃ r, a.addressed s.cfg = some (.reg r) ∧ a.we = true ∧ transact a s = respond .writeDone (writeReg r a.wdata s)) ∨
      SameButWindows s (transact a s) := by
  cases transact_cases a s with
  | busError _ ht => exact .inr (ht ▸ (SameButDraws.refl s).sameButWindows _)
  | read g _ _ ht => exact .inr (ht ▸ (readTarget_frame g s).sameButWindows _)
  | write g ha hw ht =>
    cases g with
    | reg r => exact .inl ⟨r, ha, hw, ht⟩
    | _ => exact .inr (ht ▸ writeTarget_frame (fun r h => by cases h) _ _ _)

/-- No HOST access changes what only commands write (10_state.md R23, R49). -/
theorem transact_resultView (a : BusAccess) (s : State) : (transact a s).resultView = s.resultView := by
  obtain ⟨r, -, -, ht⟩ | hf := transact_reg_or_windows a s
  · rw [ht]
    cases r <;> rfl
  · rw [hf]
    rfl

/-- Only a reset or a command changes what commands write (10_state.md R49). -/
theorem StepCase.resultView_cases {s t : State} (h : StepCase s t) :
    (∃ rest, s.inputs = .reset :: rest ∧ t = resetEvent { s with inputs := rest }) ∨ t.resultView = s.resultView ∨
      (s.eng = .busy ∧ ∃ i, ExecCase i { s with inputs := afterTurn s.inputs } t) := by
  cases h with
  | reset rest hi ht => exact .inl ⟨rest, hi, ht⟩
  | lift a _ _ ht => exact .inr (.inl (by rw [ht, transact_resultView]; rfl))
  | bus a rest _ _ _ ht => exact .inr (.inl (by rw [ht, transact_resultView]; rfl))
  | hold a rest _ _ _ ht => exact .inr (.inl (by rw [ht]; rfl))
  | command i he _ hx => exact .inr (.inr ⟨he, i, exec_next_cases hx⟩)
  | badcmd e _ _ ht => exact .inr (.inl (by rw [ht]; rfl))
  | wait _ _ ht => exact .inr (.inl (by rw [ht]; rfl))

theorem resetNext_of_inputs {s : State} {rest : List Event} (h : s.inputs = .reset :: rest) : resetNext s = true := by
  rw [resetNext, h]

/-- Settles O52: only a reset clears them, whatever else the step is. -/
theorem validFlagsClearedOnlyByReset : Obligations.ValidFlagsClearedOnlyByReset := by
  intro s t h hr
  obtain ⟨rest, hi, -⟩ | same | ⟨-, i, hc⟩ := (step_next_cases h).2.resultView_cases
  · rw [resetNext_of_inputs hi] at hr
    cases hr
  · simp only [resultView_eq_iff, sheetView_eq_iff, paletteView_eq_iff] at same
    obtain ⟨⟨-, -, -, hsheet⟩, ⟨-, -, -, hpal⟩, -⟩ := same
    rw [hsheet, hpal]
    exact ⟨id, id⟩
  · exact hc.valid_flags

/-- Settles O53: the only step left that changes a result is a command's success. -/
theorem resultRegistersChangeOnlyAtCompletion : Obligations.ResultRegistersChangeOnlyAtCompletion := by
  intro s t h hr hchange
  have not_same : t.resultView ≠ s.resultView := by
    simp only [ne_eq, resultView_eq_iff, sheetView_eq_iff, paletteView_eq_iff]
    tauto
  obtain ⟨rest, hi, -⟩ | same | ⟨he, i, hc⟩ := (step_next_cases h).2.resultView_cases
  · rw [resetNext_of_inputs hi] at hr
    cases hr
  · exact absurd same not_same
  · obtain ⟨e, -, same⟩ | ⟨hd, herr, hcode⟩ := hc.status_cases
    · exact absurd same not_same
    · exact ⟨he, hc.eng_idle, hd, herr, hcode⟩

/-! ### Reset (70_reset_and_hazards.md R190) -/

/-- Reset comes before everything else (60_exceptions.md R175). -/
theorem step_eq_reset {s : State} {rest : List Event} (hl : s.cfg.legal = true) (hi : s.inputs = .reset :: rest) :
    step s = .next (resetEvent { s with inputs := rest }) := by
  rw [step_of_legal hl, nextStep, hi]

/-- Settles O11: the state after reset, field by field. -/
theorem resetRestoresResetValues : Obligations.ResetRestoresResetValues := by
  intro s rest hl hi
  obtain ⟨-, -, ⟨-, hq⟩, -⟩ := (Config.legal_iff s.cfg).1 hl
  have hqdiv : (BitVec.ofNat 9 s.cfg.qReset).toNat = s.cfg.qReset := by
    simp only [BitVec.toNat_ofNat]
    omega
  have hstatus : statusWord .idle (State.resetOf s.cfg).status = 0 := by simp only [State.resetOf]; decide
  have hctrl : ctrlWord (State.resetOf s.cfg).ctrl = 0 := by simp only [State.resetOf]; decide
  exact ⟨_, step_eq_reset hl hi, rfl, rfl, rfl, rfl, rfl, hstatus, hctrl, rfl, rfl, rfl, rfl, hqdiv, rfl, rfl, rfl, rfl,
    fun _ => ⟨rfl, rfl, rfl, rfl, rfl, rfl, rfl⟩⟩

/-! ### STATUS (10_state.md R30, R50) -/

/-- Only acceptance clears ERRCODE among the register writes (10_state.md R30). -/
theorem writeReg_errcode {r : Reg} (hr : r ≠ .cmd) (v : Word) (s : State) :
    (writeReg r v s).status.errcode = s.status.errcode := by
  cases r with
  | cmd => exact absurd rfl hr
  | _ => rfl

/-- A HOST access leaves ERRCODE as it is, or is an accepted CMD write (10_state.md R30, R31). -/
theorem transact_errcode (a : BusAccess) (s : State) :
    (transact a s).status.errcode = s.status.errcode ∨
      (a.stalls s.cfg = true ∧ (transact a s).eng = .busy) := by
  obtain ⟨r, ha, hw, ht⟩ | hf := transact_reg_or_windows a s
  · by_cases hr : r = .cmd
    · subst hr
      exact .inr ⟨by simp [BusAccess.stalls, ha, hw], by rw [ht]; rfl⟩
    · exact .inl (by rw [ht, respond_status, writeReg_errcode hr])
  · exact .inl (by rw [hf])

theorem errCodeBits_ne_zero (e : ErrCode) : errCodeBits e ≠ 0 := by cases e <;> decide

theorem errCodeBits_le (e : ErrCode) : (errCodeBits e).toNat ≤ 8 := by cases e <;> decide

/-- Write-one-to-clear as R30 puts it. -/
theorem statusW1C_eq (v : Word) (t : Status) :
    statusW1C v t = { t with done := if v.getLsbD 1 then false else t.done, err := if v.getLsbD 2 then false else t.err } := by
  unfold statusW1C
  cases v.getLsbD 1 <;> cases v.getLsbD 2 <;> simp

/-- Settles O18: the STATUS write, and the steps that leave ERRCODE alone or set it. -/
theorem statusWriteOneToClear : Obligations.StatusWriteOneToClear := by
  refine ⟨fun s v => ?_, fun s t h hne hz => ?_⟩
  · refine (transact_writeAt_reg .status v s).trans ?_
    rw [writeReg, statusW1C_eq]
  · have kept (h : t.status.errcode = s.status.errcode) : False := hne (h ▸ hz)
    cases (step_next_cases h).2 with
    | reset rest hi _ => exact .inr (resetNext_of_inputs hi)
    | lift a _ he ht =>
      obtain hs | ⟨-, hb⟩ := transact_errcode a { s with held := none }
      · exact (kept (ht ▸ hs)).elim
      · exact .inl ⟨he, ht ▸ hb⟩
    | bus a rest _ _ hw ht =>
      obtain hs | ⟨hst, hb⟩ := transact_errcode a { s with inputs := rest }
      · exact (kept (ht ▸ hs)).elim
      · refine .inl ⟨?_, ht ▸ hb⟩
        cases he : s.eng with
        | idle => rfl
        | busy => rw [stalls_of_busy_not_mustWait he hw] at hst; cases hst
    | hold a rest _ _ _ ht => exact (kept (by rw [ht])).elim
    | command i _ _ hx =>
      obtain ⟨e, hs, -⟩ | ⟨-, -, hs⟩ := (exec_next_cases hx).status_cases
      · rw [hs] at hz
        exact absurd hz (errCodeBits_ne_zero e)
      · exact (kept hs).elim
    | badcmd e _ _ ht =>
      rw [ht] at hz
      exact absurd hz (errCodeBits_ne_zero .badCmd)
    | wait _ _ ht => exact (kept (by rw [ht])).elim

/-! ### Commands and the HOST's registers (10_state.md R48, 70_reset_and_hazards.md R193) -/

/-- A map of states that each turn of two loops respects is respected by the loops. -/
theorem forUpTo_map {σ τ : Type} {h : σ → τ} {n : Nat} {f : Nat → σ → σ} {f' : Nat → τ → τ}
    (hf : ∀ k u, f' k (h u) = h (f k u)) (u : σ) : forUpTo n f' (h u) = h (forUpTo n f u) := by
  induction n with
  | zero => rfl
  | succ n ih => rw [forUpTo, forUpTo, ih, hf]

theorem forIncl_map {σ τ : Type} {h : σ → τ} {a b : Int} {f : Int → σ → σ} {f' : Int → τ → τ}
    (hf : ∀ v u, f' v (h u) = h (f v u)) (u : σ) : forIncl a b f' (h u) = h (forIncl a b f u) :=
  forUpTo_map (f := fun k => f (a + (k : Int))) (f' := fun k => f' (a + (k : Int))) (fun _ u => hf _ u) u

section HostRegs
variable (x y : Word) (c : Ctrl) (q : BitVec 9) (d : Word)

@[simp] theorem withHostRegs_cfg (s : State) : (withHostRegs x y c q d s).cfg = s.cfg := rfl
@[simp] theorem withHostRegs_latch (s : State) : (withHostRegs x y c q d s).latch = s.latch := rfl
@[simp] theorem withHostRegs_status (s : State) : (withHostRegs x y c q d s).status = s.status := rfl
@[simp] theorem withHostRegs_sheetCur (s : State) : (withHostRegs x y c q d s).sheetCur = s.sheetCur := rfl
@[simp] theorem withHostRegs_palCount (s : State) : (withHostRegs x y c q d s).palCount = s.palCount := rfl
@[simp] theorem withHostRegs_raw (s : State) : (withHostRegs x y c q d s).raw = s.raw := rfl
@[simp] theorem withHostRegs_tileColor (s : State) : (withHostRegs x y c q d s).tileColor = s.tileColor := rfl
@[simp] theorem withHostRegs_tileDb (s : State) : (withHostRegs x y c q d s).tileDb = s.tileDb := rfl
@[simp] theorem withHostRegs_fb (s : State) : (withHostRegs x y c q d s).fb = s.fb := rfl
@[simp] theorem withHostRegs_pal (s : State) : (withHostRegs x y c q d s).pal = s.pal := rfl

@[simp] theorem readElem_withHostRegs {w : Nat} (m : Memory w) (i : Nat) (s : State) :
    readElem m i (withHostRegs x y c q d s) = ((readElem m i s).1, withHostRegs x y c q d (readElem m i s).2) := by
  unfold readElem
  split <;> rfl

theorem readIdx_withHostRegs (i : Nat) (s : State) :
    readIdx i (withHostRegs x y c q d s) = ((readIdx i s).1, withHostRegs x y c q d (readIdx i s).2) :=
  readElem_withHostRegs x y c q d s.idx i s

@[simp] theorem readTilePart_withHostRegs (n k : Nat) (s : State) :
    readTilePart n k (withHostRegs x y c q d s) =
      ((readTilePart n k s).1, withHostRegs x y c q d (readTilePart n k s).2) := by
  simp only [readTilePart, withHostRegs_cfg, withHostRegs_tileColor, readElem_withHostRegs]
  split_ifs <;> rfl

@[simp] theorem getCell_withHostRegs (tx ty : Int) (s : State) :
    getCell tx ty (withHostRegs x y c q d s) = ((getCell tx ty s).1, withHostRegs x y c q d (getCell tx ty s).2) := by
  simp [getCell, readColor, readTileDb]

theorem blitPixel_withHostRegs (xp yp : Int) (color : BitVec 96) (db : BitVec 2) (sw : Nat) (transp : Bool) (j i : Nat)
    (s : State) : blitPixel xp yp color db sw transp j i (withHostRegs x y c q d s) =
      withHostRegs x y c q d (blitPixel xp yp color db sw transp j i s) := by
  simp only [blitPixel, withHostRegs_cfg, readIdx_withHostRegs]
  split_ifs <;> rfl

@[simp] theorem renderTiles_withHostRegs (s : State) :
    renderTiles (withHostRegs x y c q d s) = withHostRegs x y c q d (renderTiles s) := by
  unfold renderTiles
  refine forIncl_map (fun yt u => forIncl_map (fun xt u => ?_) u) s
  simp only [renderTile, getCell_withHostRegs]
  exact forUpTo_map (fun j u => forUpTo_map (fun i u => blitPixel_withHostRegs x y c q d _ _ _ _ _ _ j i u) u) _

@[simp] theorem decodeAll_withHostRegs (s : State) :
    decodeAll (withHostRegs x y c q d s) = withHostRegs x y c q d (decodeAll s) := by
  refine forUpTo_map (fun i u => ?_) s
  simp only [decodePixel, readRaw, withHostRegs_raw, readElem_withHostRegs]
  rfl

@[simp] theorem buildEntries_withHostRegs (l : Nat) (s : State) :
    buildEntries l (withHostRegs x y c q d s) = withHostRegs x y c q d (buildEntries l s) := by
  unfold buildEntries
  refine forUpTo_map (fun r u => ?_) s
  refine forUpTo_map (fun g u => ?_) u
  refine forUpTo_map (fun b u => ?_) u
  rfl

@[simp] theorem readFbRun_withHostRegs (n : Nat) (s : State) :
    readFbRun n (withHostRegs x y c q d s) = ((readFbRun n s).1, withHostRegs x y c q d (readFbRun n s).2) := by
  induction n with
  | zero => rfl
  | succ n ih => simp [readFbRun, readFb, ih]

@[simp] theorem expandPixels_withHostRegs (n : Nat) (vs : List (BitVec 9)) (s : State) :
    forUpTo n (expandPixel vs) (withHostRegs x y c q d s) = withHostRegs x y c q d (forUpTo n (expandPixel vs) s) := by
  refine forUpTo_map (fun p u => ?_) s
  simp only [expandPixel, readPal, withHostRegs_pal, readElem_withHostRegs]
  rfl

@[simp] theorem lookupEntry_withHostRegs (j : Nat) (s : State) :
    lookupEntry j (withHostRegs x y c q d s) = withHostRegs x y c q d (lookupEntry j s) := by
  simp only [lookupEntry, readPal, withHostRegs_pal, readElem_withHostRegs]
  rfl

end HostRegs

/-- Settles O54: no branch of a command reads the HOST's registers, and each loop and each ending commutes with replacing them. -/
theorem commandsUseLatchedValues : Obligations.CommandsUseLatchedValues := by
  intro i s x y c q d
  cases i with
  | decode =>
    simp only [exec, execDecode, withHostRegs_cfg, withHostRegs_latch, decodeAll_withHostRegs]
    split_ifs <;> rfl
  | buildPal l =>
    simp only [exec, execBuildPal, withHostRegs_cfg, buildEntries_withHostRegs]
    split_ifs <;> rfl
  | render =>
    simp only [exec, execRender, withHostRegs_status, withHostRegs_sheetCur, renderTiles_withHostRegs]
    split_ifs <;> rfl
  | expand =>
    simp only [exec, execExpand, withHostRegs_cfg, withHostRegs_status, withHostRegs_palCount, readFbRun_withHostRegs,
      expandPixels_withHostRegs]
    cases firstOutOfRange s.palCount (readFbRun s.cfg.fbSize s).1 <;> split_ifs <;> rfl
  | lookup j =>
    simp only [exec, execLookup, withHostRegs_status, withHostRegs_palCount, lookupEntry_withHostRegs]
    split_ifs <;> rfl

/-! ### BUILD_PAL and LOOKUP (41_palette_lookup_engine.md) -/

/-- The entry at index j of the cube of L levels: R112's index read back as levels. -/
def paletteEntry (l j : Nat) : BitVec 24 := levelEntry l (j / (l * l)) (j / l % l) (j % l)

/-- An index of the cube gives its levels back (41_palette_lookup_engine.md R115). -/
theorem paletteEntry_levelIndex {l r g b : Nat} (hg : g < l) (hb : b < l) :
    paletteEntry l (levelIndex l r g b) = levelEntry l r g b := by
  have hl : 0 < l := Nat.zero_lt_of_lt hb
  have hgb : g * l + b < l * l := by
    calc g * l + b < (g + 1) * l := by rw [Nat.add_mul]; omega
      _ ≤ l * l := Nat.mul_le_mul_right l hg
  have hred : levelIndex l r g b / (l * l) = r := by
    rw [levelIndex, Nat.mul_assoc, Nat.add_assoc, Nat.mul_comm, Nat.mul_add_div (Nat.mul_pos hl hl), Nat.div_eq_of_lt hgb]
    rfl
  have hrest : levelIndex l r g b = l * (r * l + g) + b := by rw [levelIndex]; ring
  have hgreen : levelIndex l r g b / l % l = g := by
    rw [hrest, Nat.mul_add_div hl, Nat.div_eq_of_lt hb, Nat.add_zero, Nat.mul_comm r, Nat.mul_add_mod, Nat.mod_eq_of_lt hg]
  have hblue : levelIndex l r g b % l = b := by rw [hrest, Nat.mul_add_mod, Nat.mod_eq_of_lt hb]
  rw [paletteEntry, hred, hgreen, hblue]

/-- The entries below `n` are those of the cube, the others as in `s` (41_palette_lookup_engine.md R112). -/
def BuiltBelow (l : Nat) (s : State) (n : Nat) (t : State) : Prop :=
  ∀ j, memGet t.pal j = if j < n then some (paletteEntry l j) else memGet s.pal j

theorem BuiltBelow.next {l n : Nat} {s t : State} (h : BuiltBelow l s n t) :
    BuiltBelow l s (n + 1) (writePal n (paletteEntry l n) t) := by
  intro j
  rw [writePal_pal, memGet_memSet, h j]
  obtain hj | rfl | hj := lt_trichotomy j n
  · rw [if_neg (by omega), if_pos hj, if_pos (by omega)]
  · rw [if_pos rfl, if_pos (by omega)]
  · rw [if_neg (by omega), if_neg (by omega), if_neg (by omega)]

/-- BUILD_PAL writes the cube, index by index, and no entry above it (41_palette_lookup_engine.md R112). -/
theorem buildEntries_pal (l : Nat) (s : State) : BuiltBelow l s (l * l * l) (buildEntries l s) := by
  refine forUpTo_rule (P := fun r t => BuiltBelow l s (r * l * l) t) (fun j => by simp) fun r t _ ht => ?_
  have blues : (r + 1) * l * l = r * l * l + l * l := by ring
  rw [blues]
  refine forUpTo_rule (P := fun g t => BuiltBelow l s (r * l * l + g * l) t) (by simpa using ht) fun g t hg ht => ?_
  have greens : r * l * l + (g + 1) * l = r * l * l + g * l + l := by ring
  rw [greens]
  refine forUpTo_rule (P := fun b t => BuiltBelow l s (r * l * l + g * l + b) t) ht fun b t hb ht => ?_
  rw [← paletteEntry_levelIndex hg hb]
  exact ht.next

theorem levelIndex_lt {l r g b : Nat} (hr : r < l) (hg : g < l) (hb : b < l) : levelIndex l r g b < l * l * l := by
  calc r * l * l + g * l + b < r * l * l + (g + 1) * l := by rw [Nat.add_mul]; omega
    _ ≤ r * l * l + l * l := Nat.add_le_add_left (Nat.mul_le_mul_right l hg) _
    _ = (r + 1) * (l * l) := by ring
    _ ≤ l * (l * l) := Nat.mul_le_mul_right _ hr
    _ = l * l * l := by ring

/-- The entry of levels (r, g, b) after BUILD_PAL's loops (41_palette_lookup_engine.md R112). -/
theorem buildEntries_get {l r g b : Nat} (s : State) (hr : r < l) (hg : g < l) (hb : b < l) :
    memGet (buildEntries l s).pal (levelIndex l r g b) = some (levelEntry l r g b) := by
  rw [buildEntries_pal l s, if_pos (levelIndex_lt hr hg hb), paletteEntry_levelIndex hg hb]

theorem lMax_le (c : Config) : c.lMax ≤ 8 := by
  unfold Config.lMax
  split <;> omega

/-- PAL_COUNT holds the cube of every legal L (10_state.md R38). -/
theorem palCount_toNat {l : Nat} (hl : l ≤ 8) : (BitVec.ofNat 10 (l * l * l)).toNat = l * l * l := by
  have hc : l * l * l ≤ 8 * 8 * 8 := Nat.mul_le_mul (Nat.mul_le_mul hl hl) hl
  simp only [BitVec.toNat_ofNat]
  omega

/-- A level's channel is 8 bits (41_palette_lookup_engine.md R111). -/
theorem scale_lt {v l : Nat} (hv : v < l) : scale v l < 256 := by
  obtain rfl | h1 : l = 1 ∨ 0 < l - 1 := by omega
  · simp [scale]
  · have hm : v * 255 ≤ 255 * (l - 1) := by rw [Nat.mul_comm]; exact Nat.mul_le_mul_left _ (by omega)
    exact Nat.lt_succ_of_le (Nat.div_le_of_le_mul (by rwa [Nat.mul_comm (l - 1)]))

/-- An entry as a number: red in bits 23:16, green in 15:8, blue in 7:0 (41_palette_lookup_engine.md R110, R112). -/
theorem levelEntry_toNat {l r g b : Nat} (hr : r < l) (hg : g < l) (hb : b < l) :
    (levelEntry l r g b).toNat = scale r l * 2 ^ 16 + scale g l * 2 ^ 8 + scale b l := by
  have h1 := scale_lt hr
  have h2 := scale_lt hg
  have h3 := scale_lt hb
  simp only [levelEntry, rgbEntry, toNat_append_eq_add, BitVec.toNat_ofNat]
  omega

/-- A BUILD_PAL with a legal L completes (41_palette_lookup_engine.md R112). -/
theorem exec_buildPal_of_legal_level {l : Nat} {s : State} (h2 : 2 ≤ l) (hl : l ≤ s.cfg.lMax) :
    exec (.buildPal l) s = .next (complete (installPalette l (buildEntries l s))) := if_neg (by omega)

/-- A LOOKUP within the palette completes (41_palette_lookup_engine.md R114). -/
theorem exec_lookup_of_in_range {i : Nat} {s : State} (hv : s.status.palValid = true) (hi : i < s.palCount.toNat) :
    exec (.lookup i) s = .next (complete (lookupEntry i s)) := by
  rw [exec, execLookup, if_neg (by simp [hv]), if_neg (by omega)]

theorem lookupEntry_written {i : Nat} {s : State} {e : BitVec 24} (h : memGet s.pal i = some e) :
    lookupEntry i s = { s with lutRgb := e } := by
  rw [lookupEntry, readPal, readElem_written s h]

theorem lookupEntry_unwritten {i : Nat} {s : State} (h : memGet s.pal i = none) :
    lookupEntry i s = { s.drawn with lutRgb := (Config.draw s.draws).setWidth 24 } := by
  rw [lookupEntry, readPal, readElem_unwritten s h]

/-- Settles O35, for a written and for an unwritten entry. -/
theorem lookupReturnsTheEntry : Obligations.LookupReturnsTheEntry := by
  intro s i hv hi
  rw [exec_lookup_of_in_range hv hi]
  refine ⟨fun e he => ?_, fun hn => ?_⟩
  · rw [lookupEntry_written he]
    rfl
  · rw [lookupEntry_unwritten hn]
    rfl

/-- Settles O36: the entry BUILD_PAL wrote is what LOOKUP reads. -/
theorem lookupAfterBuildPal : Obligations.LookupAfterBuildPal := by
  intro s l r g b _ h2 hl hr hg hb
  have hcount : r * l * l + g * l + b < (BitVec.ofNat 10 (l * l * l)).toNat := by
    rw [palCount_toNat (hl.trans (lMax_le _))]
    exact levelIndex_lt hr hg hb
  have hentry : memGet (complete (installPalette l (buildEntries l s))).pal (r * l * l + g * l + b) =
      some (levelEntry l r g b) := buildEntries_get s hr hg hb
  refine ⟨_, _, exec_buildPal_of_legal_level h2 hl, exec_lookup_of_in_range rfl hcount, ?_, ?_⟩
  · rw [lookupEntry_written hentry]
    rfl
  · rw [lookupEntry_written hentry]
    exact levelEntry_toNat hr hg hb

/-! ### The memories hold what exists (10_state.md R40-R45, 20_memory.md R75, R76) -/

/-- What `MemoriesOk` speaks of. -/
def State.memoryView (s : State) :
    Config × Memory 32 × Memory 3 × Memory 32 × Memory 2 × Memory 9 × Memory 24 × Memory 24 :=
  (s.cfg, s.raw, s.idx, s.tileColor, s.tileDb, s.fb, s.rgb, s.pal)

theorem MemoriesOk.of_view {s t : State} (h : MemoriesOk s) (e : t.memoryView = s.memoryView) : MemoriesOk t := by
  cases s
  cases t
  simp only [State.memoryView, Prod.mk.injEq] at e
  obtain ⟨rfl, rfl, rfl, rfl, rfl, rfl, rfl, rfl⟩ := e
  exact { h with }

theorem memoriesOk_resetOf {c : Config} (hl : c.legal = true) : MemoriesOk (State.resetOf c) := by
  obtain ⟨raw, idx, tileColor, tileDb, fb, rgb, pal⟩ := resetOf_wf c
  exact ⟨hl, raw, by simp [State.resetOf], idx, by simp [State.resetOf], tileColor, by simp [State.resetOf], tileDb,
    by simp [State.resetOf], fb, by simp [State.resetOf], rgb, by simp [State.resetOf], pal, by simp [State.resetOf]⟩

theorem MemoriesOk.of_draws {s t : State} (h : MemoriesOk s) (hd : SameButDraws s t) : MemoriesOk t :=
  h.of_view (by rw [hd]; rfl)

theorem MemoriesOk.writeRaw {s : State} (h : MemoriesOk s) {i : Nat} (v : Word) (hi : i < s.cfg.rawCap) :
    MemoriesOk (writeRaw i v s) :=
  { h with raw_wf := writeRaw_wf i v h.raw_wf, raw_in := forall_mem_memSet h.raw_in hi }

theorem MemoriesOk.writeIdx {s : State} (h : MemoriesOk s) {i : Nat} (v : BitVec 3) (hi : i < s.cfg.rawCap) :
    MemoriesOk (writeIdx i v s) :=
  { h with idx_wf := writeIdx_wf i v h.idx_wf, idx_in := forall_mem_memSet h.idx_in hi }

/-- FB stores FIELD_W bits of what is written (20_memory.md R75). -/
theorem MemoriesOk.writeFb {s : State} (h : MemoriesOk s) {p : Nat} (v : BitVec 9) (hp : p < s.cfg.fbSize) :
    MemoriesOk (writeFb p v s) := by
  have hv : (s.cfg.truncField v).toNat < 2 ^ s.cfg.fieldW := by
    rw [truncField_toNat (legal_fieldW_le h.legal)]
    exact Nat.mod_lt _ (by positivity)
  exact { h with fb_wf := writeFb_wf p v h.fb_wf, fb_in := forall_mem_memSet h.fb_in ⟨hp, hv⟩ }

theorem MemoriesOk.writeRgb {s : State} (h : MemoriesOk s) {p : Nat} (v : BitVec 24) (hp : p < s.cfg.fbSize) :
    MemoriesOk (writeRgb p v s) :=
  { h with rgb_wf := writeRgb_wf p v h.rgb_wf, rgb_in := forall_mem_memSet h.rgb_in hp }

theorem MemoriesOk.writePal {s : State} (h : MemoriesOk s) {j : Nat} (v : BitVec 24) (hj : j < s.cfg.palDepth) :
    MemoriesOk (writePal j v s) :=
  { h with pal_wf := writePal_wf j v h.pal_wf, pal_in := forall_mem_memSet h.pal_in hj }

theorem MemoriesOk.writeTileDb {s : State} (h : MemoriesOk s) {c : Nat} (v : Word) (hc : c < s.cfg.cellCount) :
    MemoriesOk (writeTileDb c v s) :=
  { h with tileDb_wf := writeTileDb_wf c v h.tileDb_wf, tileDb_in := forall_mem_memSet h.tileDb_in hc }

/-- A part stores its existing bits (20_memory.md R76). -/
theorem MemoriesOk.writeTilePart {s : State} (h : MemoriesOk s) {c k : Nat} (v : Word) (hc : c < s.cfg.cellCount)
    (hk : k < 3) : MemoriesOk (writeTilePart c k v s) := by
  by_cases h0 : s.cfg.partMask k = 0
  · rwa [writeTilePart_of_no_bits h0]
  · have hpart : (3 * c + k) % 3 = k := by omega
    rw [Machine.writeTilePart, if_neg h0]
    exact { h with
      tileColor_wf := memSet_wf _ _ h.tileColor_wf
      tileColor_in := forall_mem_memSet h.tileColor_in ⟨by simp only; omega, by simp only [hpart, BitVec.and_assoc, BitVec.and_self]⟩ }

theorem MemoriesOk.writeTarget {s : State} (h : MemoriesOk s) {g : Target} (v : Word) (hg : g.inRange s.cfg) :
    MemoriesOk (writeTarget g v s) := by
  cases g with
  | reg r => exact h.of_view (by cases r <;> rfl)
  | pal j => exact h
  | rgb p => exact h
  | idx i => exact h
  | raw i => exact h.writeRaw v hg
  | fb p => exact h.writeFb (v.setWidth 9) hg
  | tile c k =>
    obtain ⟨hc, -⟩ : c < s.cfg.cellCount ∧ k < 4 := hg
    by_cases hk : k < 3
    · rw [Machine.writeTarget, if_pos hk]
      exact h.writeTilePart v hc hk
    · rw [Machine.writeTarget, if_neg hk]
      exact h.writeTileDb v hc

/-- A HOST access writes only what it addresses, which exists (20_memory.md R73). -/
theorem MemoriesOk.transact {s : State} (h : MemoriesOk s) (a : BusAccess) : MemoriesOk (transact a s) := by
  cases transact_cases a s with
  | busError _ ht => exact ht ▸ h.of_view rfl
  | read g _ _ ht => exact ht ▸ (h.of_draws (readTarget_frame g s)).of_view rfl
  | write g ha _ ht => exact ht ▸ (h.writeTarget a.wdata (inRange_of_addressed ha)).of_view rfl

/-- The image fits RAW and IDX (40_sprite_sheet_decoder.md R102). -/
theorem badImage_false_iff {c : Config} {d : Word} : badImage c d = false ↔
    0 < lowHalf d ∧ 0 < highHalf d ∧ lowHalf d * highHalf d ≤ c.rawCap := by
  have hw : dimWidth d = lowHalf d := dimWidth_eq_mod d
  have hh : dimHeight d = highHalf d := dimHeight_eq_div d
  simp [badImage, hw, hh, Nat.pos_iff_ne_zero, and_assoc]

/-- DECODE writes IDX below the image's size, which fits it (40_sprite_sheet_decoder.md R102). -/
theorem MemoriesOk.decodeAll {s : State} (h : MemoriesOk s) (hi : badImage s.cfg s.latch.sdim = false) :
    MemoriesOk (decodeAll s) := by
  obtain ⟨-, -, hfit⟩ := badImage_false_iff.1 hi
  have main : (Machine.decodeAll s).cfg = s.cfg ∧ MemoriesOk (Machine.decodeAll s) := by
    refine forUpTo_keeps (P := fun t : State => t.cfg = s.cfg ∧ MemoriesOk t) ⟨rfl, h⟩ fun k t hk ⟨hc, ht⟩ => ?_
    have hd : SameButDraws t (readRaw k t).2 := readElem_frame t.raw k t
    have hk' : k < lowHalf s.latch.sdim * highHalf s.latch.sdim := by
      rwa [dimWidth_eq_mod, dimHeight_eq_div] at hk
    refine ⟨hd.cfg_eq.trans hc, (ht.of_draws hd).writeIdx _ ?_⟩
    rw [hd.cfg_eq, hc]
    omega
  exact main.2

/-- The cube of a legal L fits PAL (00_scope.md R6). -/
theorem cube_le_palDepth {c : Config} {l : Nat} (hl : c.legal = true) (hm : l ≤ c.lMax) : l * l * l ≤ c.palDepth :=
  (Nat.mul_le_mul (Nat.mul_le_mul hm hm) hm).trans (lMax_cube_bounds hl).1

theorem MemoriesOk.buildEntries {s : State} {l : Nat} (h : MemoriesOk s) (hm : l ≤ s.cfg.lMax) :
    MemoriesOk (buildEntries l s) := by
  have main : (Machine.buildEntries l s).cfg = s.cfg ∧ MemoriesOk (Machine.buildEntries l s) := by
    refine forUpTo_keeps (P := fun t : State => t.cfg = s.cfg ∧ MemoriesOk t) ⟨rfl, h⟩ fun r t hr ht => ?_
    refine forUpTo_keeps (P := fun t : State => t.cfg = s.cfg ∧ MemoriesOk t) ht fun g t hg ht => ?_
    refine forUpTo_keeps (P := fun t : State => t.cfg = s.cfg ∧ MemoriesOk t) ht fun b t hb ⟨hc, ht⟩ => ?_
    refine ⟨hc, ht.writePal _ ?_⟩
    rw [hc]
    exact (levelIndex_lt hr hg hb).trans_le (cube_le_palDepth h.legal hm)
  exact main.2

theorem MemoriesOk.expandPixels {s : State} {n : Nat} (vs : List (BitVec 9)) (h : MemoriesOk s) (hn : n ≤ s.cfg.fbSize) :
    MemoriesOk (forUpTo n (expandPixel vs) s) := by
  have main : (forUpTo n (expandPixel vs) s).cfg = s.cfg ∧ MemoriesOk (forUpTo n (expandPixel vs) s) := by
    refine forUpTo_keeps (P := fun t : State => t.cfg = s.cfg ∧ MemoriesOk t) ⟨rfl, h⟩ fun p t hp ⟨hc, ht⟩ => ?_
    have hd : SameButDraws t (readPal (vs.getD p 0).toNat t).2 := readElem_frame t.pal _ t
    refine ⟨hd.cfg_eq.trans hc, (ht.of_draws hd).writeRgb _ ?_⟩
    rw [hd.cfg_eq, hc]
    omega
  exact main.2

/-- A pixel inside the buffer has an element (43_tilemap_rasterizer.md R149). -/
theorem pixel_index_lt {c : Config} {px py : Nat} (hx : px < c.fbW) (hy : py < c.fbH) : px + py * c.fbW < c.fbSize := by
  calc px + py * c.fbW < (py + 1) * c.fbW := by rw [Nat.add_mul]; omega
    _ ≤ c.fbH * c.fbW := Nat.mul_le_mul_right _ hy
    _ = c.fbSize := Nat.mul_comm _ _

theorem MemoriesOk.blitPixel {s : State} (h : MemoriesOk s) (xp yp : Int) (color : BitVec 96) (db : BitVec 2) (sw : Nat)
    (transp : Bool) (y x : Nat) : MemoriesOk (blitPixel xp yp color db sw transp y x s) := by
  have hd : SameButDraws s (readIdx (sheetElement db sw x y) s).2 := readElem_frame s.idx _ s
  have hr := h.of_draws hd
  simp only [Machine.blitPixel]
  split
  · exact h
  · next hcl =>
    obtain ⟨⟨hx0, hx⟩, hy0, hy⟩ := clipped_false_iff.1 (Bool.eq_false_iff.2 hcl)
    split
    · exact hr
    · refine hr.writeFb _ ?_
      rw [hd.cfg_eq]
      exact pixel_index_lt (by omega) (by omega)

theorem MemoriesOk.renderTiles {s : State} (h : MemoriesOk s) : MemoriesOk (renderTiles s) := by
  unfold Machine.renderTiles
  refine forIncl_keeps (P := MemoriesOk) h fun yt t _ _ ht => ?_
  refine forIncl_keeps (P := MemoriesOk) ht fun xt t _ _ ht => ?_
  have hcell := ht.of_draws (getCell_frame xt yt t)
  refine forUpTo_keeps (P := MemoriesOk) hcell fun y t _ ht => ?_
  exact forUpTo_keeps (P := MemoriesOk) ht fun x t _ ht => ht.blitPixel _ _ _ _ _ _ y x

/-- Every command writes only elements and bits that exist. -/
theorem ExecCase.memoriesOk {i : Instr} {s t : State} (hx : ExecCase i s t) (h : MemoriesOk s) : MemoriesOk t := by
  cases hx with
  | error _ _ e w s' _ hs => exact (h.of_draws hs).of_view rfl
  | decode _ hi => exact (h.decodeAll hi).of_view rfl
  | buildPal l _ _ hm => exact (h.buildEntries hm).of_view rfl
  | render => exact h.renderTiles.of_view rfl
  | expand =>
    have hd := readFbRun_frame s.cfg.fbSize s
    exact ((h.of_draws hd).expandPixels _ (by rw [hd.cfg_eq])).of_view rfl
  | lookup j => exact h.of_view (by rw [lookupEntry_frame]; rfl)

/-- Settles O57: resets empty the memories, accesses and commands write what exists, and the other steps write nothing. -/
theorem stepKeepsMemoriesOk : Obligations.StepKeepsMemoriesOk := by
  intro s t h hstep
  cases (step_next_cases hstep).2 with
  | reset rest _ ht => exact ht ▸ (memoriesOk_resetOf h.legal).of_view rfl
  | lift a _ _ ht => exact ht ▸ (h.of_view (t := { s with held := none }) rfl).transact a
  | bus a rest _ _ _ ht => exact ht ▸ (h.of_view (t := { s with inputs := rest }) rfl).transact a
  | hold a rest _ _ _ ht => exact ht ▸ h.of_view rfl
  | command i _ _ hx => exact (exec_next_cases hx).memoriesOk (h.of_view rfl)
  | badcmd e _ _ ht => exact ht ▸ h.of_view rfl
  | wait _ _ ht => exact ht ▸ h.of_view rfl

/-! ### STATUS, ERR_INFO, CMD and the held access agree with ENG (10_state.md R50, 70_reset_and_hazards.md R192) -/

/-- What `StatusOk` speaks of. -/
def State.controlView (s : State) : Config × Eng × Latch × Option BusAccess × Status × Word × Word :=
  (s.cfg, s.eng, s.latch, s.held, s.status, s.cmd, s.errInfo)

theorem StatusOk.of_view {s t : State} (h : StatusOk s) (e : t.controlView = s.controlView) : StatusOk t := by
  cases s
  cases t
  simp only [State.controlView, Prod.mk.injEq] at e
  obtain ⟨rfl, rfl, rfl, rfl, rfl, rfl, rfl⟩ := e
  exact { h with }

theorem statusOk_resetOf (c : Config) : StatusOk (State.resetOf c) := by
  constructor <;> simp [State.resetOf]

/-- Acceptance shows no outcome and latches the word CMD takes (10_state.md R50). -/
theorem StatusOk.accept {s : State} (h : StatusOk s) (w : Word) : StatusOk (accept w s) where
  busy_done _ := rfl
  busy_err _ := rfl
  busy_errcode _ := rfl
  busy_errInfo _ := rfl
  busy_cmd _ := rfl
  errcode_le := Nat.zero_le 8
  err_code he := by cases he
  held_stalls := h.held_stalls

/-- Write-one-to-clear only clears flags (10_state.md R30). -/
theorem StatusOk.writeStatus {s : State} (h : StatusOk s) (v : Word) : StatusOk (writeReg .status v s) :=
  { h with
    busy_done := fun he => by simp [writeReg, statusW1C, h.busy_done he]
    busy_err := fun he => by simp [writeReg, statusW1C, h.busy_err he]
    err_code := fun he => h.err_code (Bool.and_eq_true_iff.1 he).1 }

theorem StatusOk.writeReg {s : State} (h : StatusOk s) (r : Reg) (v : Word) : StatusOk (writeReg r v s) := by
  cases r with
  | cmd => exact h.accept v
  | status => exact h.writeStatus v
  | _ => exact h.of_view rfl

theorem StatusOk.transact {s : State} (h : StatusOk s) (a : BusAccess) : StatusOk (transact a s) := by
  obtain ⟨r, -, -, ht⟩ | hf := transact_reg_or_windows a s
  · exact ht ▸ (h.writeReg r a.wdata).of_view rfl
  · exact h.of_view (by rw [hf]; rfl)

/-- A command that ends leaves the block IDLE, with a code of R172 or with the code it found (60_exceptions.md R171-R173). -/
theorem StatusOk.ended {s t : State} (h : StatusOk s) (hidle : t.eng = .idle) (hcfg : t.cfg = s.cfg) (hheld : t.held = s.held)
    (hst : (∃ e, t.status = statusFailed e s.status) ∨
      (t.status.err = s.status.err ∧ t.status.errcode = s.status.errcode)) : StatusOk t := by
  have not_busy {P : Prop} (hb : t.eng = .busy) : P := by rw [hidle] at hb; cases hb
  refine ⟨not_busy, not_busy, not_busy, not_busy, not_busy, ?_, ?_, by rw [hcfg, hheld]; exact h.held_stalls⟩
  · obtain ⟨e, he⟩ | ⟨-, hcode⟩ := hst
    · rw [he]
      exact errCodeBits_le e
    · rw [hcode]
      exact h.errcode_le
  · obtain ⟨e, he⟩ | ⟨herr, hcode⟩ := hst
    · rw [he]
      exact fun _ => errCodeBits_ne_zero e
    · rw [herr, hcode]
      exact h.err_code

theorem ExecCase.statusOk {i : Instr} {s t : State} (hx : ExecCase i s t) (h : StatusOk s) : StatusOk t := by
  have hheld : t.held = s.held := by rw [hx.sameButResults]
  obtain ⟨e, hs, -⟩ | ⟨-, hs⟩ := hx.status_cases
  · exact h.ended hx.eng_idle hx.cfg_eq hheld (.inl ⟨e, hs⟩)
  · exact h.ended hx.eng_idle hx.cfg_eq hheld (.inr hs)

/-- Settles O58: only accesses the stall rule holds are held, and every other step accepts, writes a register or ends a
command. -/
theorem stepKeepsStatusOk : Obligations.StepKeepsStatusOk := by
  intro s t h hstep
  cases (step_next_cases hstep).2 with
  | reset rest _ ht => exact ht ▸ (statusOk_resetOf s.cfg).of_view rfl
  | lift a _ _ ht =>
    have lifted : StatusOk { s with held := none } := { h with held_stalls := fun _ ha => by cases ha }
    exact ht ▸ lifted.transact a
  | bus a rest _ _ _ ht => exact ht ▸ (h.of_view (t := { s with inputs := rest }) rfl).transact a
  | hold a rest _ _ hw ht =>
    have stalls : a.stalls s.cfg = true := (Bool.and_eq_true_iff.1 hw).2
    exact ht ▸ { h with held_stalls := fun b hb => Option.some.inj hb ▸ stalls }
  | command i _ _ hx => exact (exec_next_cases hx).statusOk (h.of_view rfl)
  | badcmd e _ _ ht => exact h.ended (by rw [ht]; rfl) (by rw [ht]; rfl) (by rw [ht]; rfl) (.inl ⟨.badCmd, by rw [ht]; rfl⟩)
  | wait _ _ ht => exact ht ▸ h.of_view rfl

/-! ### A valid sheet and a valid palette (40_sprite_sheet_decoder.md R105, 41_palette_lookup_engine.md R115) -/

/-- The sheet's half of `SheetPaletteOk`. -/
structure SheetOk (s : State) : Prop where
  area : s.status.sheetValid = true → 0 < lowHalf s.sheetCur ∧ 0 < highHalf s.sheetCur ∧
    lowHalf s.sheetCur * highHalf s.sheetCur ≤ s.cfg.rawCap
  idx : s.status.sheetValid = true → ∀ i, i < lowHalf s.sheetCur * highHalf s.sheetCur →
    ∃ v, memGet s.idx i = some v ∧ v.toNat < s.cfg.nSub
  no_sheet : s.status.sheetValid = false → s.sheetCur = 0

/-- The palette's half of `SheetPaletteOk`. -/
structure PaletteOk (s : State) : Prop where
  cube : s.status.palValid = true → ∃ l, 2 ≤ l ∧ l ≤ s.cfg.lMax ∧ s.palCount.toNat = l * l * l ∧
    ∀ r g b, r < l → g < l → b < l → memGet s.pal (levelIndex l r g b) = some (levelEntry l r g b)
  no_palette : s.status.palValid = false → s.palCount = 0

theorem sheetPaletteOk_iff {s : State} : SheetPaletteOk s ↔ SheetOk s ∧ PaletteOk s :=
  ⟨fun h => ⟨⟨h.sheet_area, h.sheet_idx, h.no_sheet⟩, ⟨h.palette, h.no_palette⟩⟩,
    fun ⟨hs, hp⟩ => ⟨hs.area, hs.idx, hs.no_sheet, hp.cube, hp.no_palette⟩⟩

theorem SheetOk.of_view {s t : State} (h : SheetOk s) (e : t.sheetView = s.sheetView) : SheetOk t := by
  obtain ⟨hcfg, hidx, hcur, hvalid⟩ := sheetView_eq_iff.1 e
  constructor
  · rw [hcfg, hcur, hvalid]; exact h.area
  · rw [hcfg, hidx, hcur, hvalid]; exact h.idx
  · rw [hcur, hvalid]; exact h.no_sheet

theorem PaletteOk.of_view {s t : State} (h : PaletteOk s) (e : t.paletteView = s.paletteView) : PaletteOk t := by
  obtain ⟨hcfg, hpal, hcount, hvalid⟩ := paletteView_eq_iff.1 e
  constructor
  · rw [hcfg, hpal, hcount, hvalid]; exact h.cube
  · rw [hcount, hvalid]; exact h.no_palette

theorem sheetPaletteOk_resetOf (c : Config) : SheetPaletteOk (State.resetOf c) := by
  constructor <;> simp [State.resetOf]

/-- Settles O60: nothing is written, shown, held or valid right after reset. -/
theorem invariantsHoldAtReset : Obligations.InvariantsHoldAtReset := fun c hl =>
  ⟨memoriesOk_resetOf hl, statusOk_resetOf c, sheetPaletteOk_resetOf c, memoriesOk_resetOf (by decide),
    statusOk_resetOf Config.p216, sheetPaletteOk_resetOf Config.p216⟩

/-- IDX elements below `n` hold their pixel's channel divided by L.Q, a draw's where RAW has no pixel, and the others are
as in `s` (40_sprite_sheet_decoder.md R102). -/
structure DecodedBelow (s : State) (n : Nat) (t : State) : Prop where
  raw : t.raw = s.raw
  below : ∀ j, j < n → ∃ v : Word, (∀ x, memGet s.raw j = some x → v = x) ∧
    memGet t.idx j = some (BitVec.ofNat 3 (quant (channel v) s.latch.q.toNat))
  above : ∀ j, n ≤ j → memGet t.idx j = memGet s.idx j

theorem DecodedBelow.next {s t : State} {n : Nat} (h : DecodedBelow s n t) :
    DecodedBelow s (n + 1) (decodePixel s.latch.q n t) := by
  have hd : SameButDraws t (readRaw n t).2 := readElem_frame t.raw n t
  have hraw : (readRaw n t).2.raw = t.raw := by rw [hd]
  have hidx : (readRaw n t).2.idx = t.idx := by rw [hd]
  refine ⟨hraw.trans h.raw, fun j hj => ?_, fun j hj => ?_⟩
  · by_cases hjn : j = n
    · subst hjn
      refine ⟨(readRaw j t).1, fun x hx => ?_, memGet_memSet_same _ _ _⟩
      rw [readRaw, readElem_written t (h.raw ▸ hx)]
    · obtain ⟨v, hv, hget⟩ := h.below j (by omega)
      refine ⟨v, hv, ?_⟩
      rw [decodePixel, writeIdx_idx, memGet_memSet_other _ _ hjn, hidx, hget]
  · rw [decodePixel, writeIdx_idx, memGet_memSet_other _ _ (by omega), hidx, h.above j (by omega)]

/-- DECODE's loop decodes the image and no other element (40_sprite_sheet_decoder.md R102). -/
theorem decodeAll_idx (s : State) :
    DecodedBelow s (lowHalf s.latch.sdim * highHalf s.latch.sdim) (decodeAll s) := by
  have size : dimWidth s.latch.sdim * dimHeight s.latch.sdim = lowHalf s.latch.sdim * highHalf s.latch.sdim := by
    rw [dimWidth_eq_mod, dimHeight_eq_div]
    rfl
  rw [← size]
  exact forUpTo_rule ⟨rfl, fun j hj => absurd hj (Nat.not_lt_zero j), fun _ _ => rfl⟩ fun _ _ _ ht => ht.next

theorem channel_le (v : Word) : channel v ≤ 255 := Nat.le_of_lt_succ (v.extractLsb' 0 8).isLt

/-- A legal Q keeps every index below N_SUB (40_sprite_sheet_decoder.md R103). -/
theorem quantized_lt_nSub {c : Config} {q : BitVec 9} (hl : c.legal = true) (hq : badQ c q = false) (v : Word) :
    (BitVec.ofNat 3 (quant (channel v) q.toNat)).toNat < c.nSub := by
  have hmax : quant 255 q.toNat < c.nSub := by
    simp only [badQ, Bool.or_eq_false_iff, decide_eq_false_iff_not, not_le] at hq
    exact hq.2
  have hle : quant (channel v) q.toNat ≤ quant 255 q.toNat := Nat.div_le_div_right (channel_le v)
  obtain ⟨-, hn, -⟩ := (Config.legal_iff c).1 hl
  simp only [BitVec.toNat_ofNat]
  omega

/-- A successful DECODE leaves a valid sheet (40_sprite_sheet_decoder.md R102, R105). -/
theorem sheetOk_decoded {s : State} (hl : s.cfg.legal = true) (hi : badImage s.cfg s.latch.sdim = false)
    (hq : badQ s.cfg s.latch.q = false) : SheetOk (complete (installSheet (decodeAll s))) := by
  have hcfg : (decodeAll s).cfg = s.cfg := by rw [decodeAll_frame]
  have hlatch : (decodeAll s).latch = s.latch := by rw [decodeAll_frame]
  refine ⟨fun _ => ?_, fun _ j hj => ?_, fun hv => by cases hv⟩
  · simp only [complete_sheetCur, complete_cfg, installSheet_sheetCur, installSheet_cfg, hcfg, hlatch]
    exact badImage_false_iff.1 hi
  · simp only [complete_sheetCur, installSheet_sheetCur, hlatch] at hj
    obtain ⟨v, -, hget⟩ := (decodeAll_idx s).below j hj
    refine ⟨_, hget, ?_⟩
    simp only [complete_cfg, installSheet_cfg, hcfg]
    exact quantized_lt_nSub hl hq v

/-- A successful BUILD_PAL leaves a valid palette (41_palette_lookup_engine.md R112, R115). -/
theorem paletteOk_built {s : State} {l : Nat} (h2 : 2 ≤ l) (hm : l ≤ s.cfg.lMax) :
    PaletteOk (complete (installPalette l (buildEntries l s))) := by
  have hcfg : (buildEntries l s).cfg = s.cfg := by rw [buildEntries_frame]
  refine ⟨fun _ => ⟨l, h2, ?_, palCount_toNat (hm.trans (lMax_le _)), fun r g b hr hg hb => buildEntries_get s hr hg hb⟩,
    fun hv => by cases hv⟩
  simpa only [complete_cfg, installPalette_cfg, hcfg] using hm

theorem ExecCase.sheetOk {i : Instr} {s t : State} (hx : ExecCase i s t) (hl : s.cfg.legal = true) (h : SheetOk s) :
    SheetOk t := by
  by_cases hi : i = .decode
  · subst hi
    cases hx with
    | error _ _ e w s' _ hs => exact h.of_view (by rw [hs]; rfl)
    | decode _ himage hq => exact sheetOk_decoded hl himage hq
  · exact h.of_view (hx.sheetView_eq hi)

theorem ExecCase.paletteOk {i : Instr} {s t : State} (hx : ExecCase i s t) (h : PaletteOk s) : PaletteOk t := by
  by_cases hi : ∃ l, i = .buildPal l
  · obtain ⟨l, rfl⟩ := hi
    cases hx with
    | error _ _ e w s' _ hs => exact h.of_view (by rw [hs]; rfl)
    | buildPal _ _ h2 hm => exact paletteOk_built h2 hm
  · exact h.of_view (hx.paletteView_eq fun l hl => hi ⟨l, hl⟩)

/-- Settles O59: a reset clears both, commands leave valid ones or keep them, and no other step touches them. -/
theorem stepKeepsSheetPaletteOk : Obligations.StepKeepsSheetPaletteOk := by
  intro s t h hstep
  obtain ⟨hl, hc⟩ := step_next_cases hstep
  obtain ⟨sheet, palette⟩ := sheetPaletteOk_iff.1 h
  obtain ⟨rest, -, rfl⟩ | same | ⟨-, i, hx⟩ := hc.resultView_cases
  · obtain ⟨sheet, palette⟩ := sheetPaletteOk_iff.1 (sheetPaletteOk_resetOf s.cfg)
    exact sheetPaletteOk_iff.2 ⟨sheet.of_view rfl, palette.of_view rfl⟩
  · obtain ⟨sameSheet, samePalette, -⟩ := resultView_eq_iff.1 same
    exact sheetPaletteOk_iff.2 ⟨sheet.of_view sameSheet, palette.of_view samePalette⟩
  · exact sheetPaletteOk_iff.2 ⟨hx.sheetOk hl (sheet.of_view rfl), hx.paletteOk (palette.of_view rfl)⟩

end Sys2Proof.Machine

/-! PROOFS of the family 20_memory.md: bus errors, the read-only windows and the word views of the single-word windows. -/

namespace Sys2Proof.Machine

/-! ### Bus errors (20_memory.md R71, R73) -/

/-- R71's condition on an access, as arithmetic on its offset. -/
theorem supported_iff (a : BusAccess) : a.supported = true ↔ a.size = 2 ∧ a.addr.toNat % 4 = 0 := by
  have low : a.addr.extractLsb' 0 2 = 0 ↔ a.addr.toNat % 4 = 0 := by
    rw [← BitVec.toNat_inj, BitVec.extractLsb'_toNat, Nat.shiftRight_zero]
    rfl
  rw [BusAccess.supported, Bool.and_eq_true, beq_iff_eq, beq_iff_eq, low]

/-- An access addresses something exactly when it is supported and its offset names something (20_memory.md R71, R73). -/
theorem addressed_eq_some_iff {c : Config} {a : BusAccess} {g : Target} :
    a.addressed c = some g ↔ (a.size = 2 ∧ a.addr.toNat % 4 = 0) ∧ target c a.addr.toNat = some g := by
  rw [BusAccess.addressed, Option.ite_none_right_eq_some, supported_iff]

/-- An access that addresses nothing gets a bus error and changes no state (20_memory.md R71, R73). -/
theorem transact_of_not_addressed {a : BusAccess} {s : State} (h : ∀ g, a.addressed s.cfg ≠ some g) :
    transact a s = { s with resp := some .busError } := by
  cases transact_cases a s with
  | busError _ ht => exact ht
  | read g ha _ _ => exact absurd ha (h g)
  | write g ha _ _ => exact absurd ha (h g)

/-- Settles O19: such an access is not supported, so it addresses nothing. -/
theorem unsupportedAccessIsBusError : Obligations.UnsupportedAccessIsBusError := by
  intro s a h
  refine transact_of_not_addressed fun g ha => ?_
  obtain ⟨⟨hsize, hword⟩, -⟩ := addressed_eq_some_iff.1 ha
  exact h.elim (· hsize) (· hword)

/-- The offset at which the register region or window of a target ends (20_memory.md R72). -/
def Target.windowEnd : Target → Nat
  | .reg _ => 0x010000
  | .pal _ => 0x100000
  | .tile _ _ => 0x200000
  | .fb _ => 0x300000
  | .rgb _ => 0x400000
  | .raw _ => 0x500000
  | .idx _ => 0x600000

/-- In every elaboration, also one whose memories outgrow their windows, an offset names an element of the window it lies
in (20_memory.md R72). -/
theorem lt_windowEnd_of_target {c : Config} {off : Nat} {g : Target} (h : target c off = some g) : off < g.windowEnd := by
  unfold target at h
  split_ifs at h
  · obtain ⟨r, -, rfl⟩ := Option.map_eq_some_iff.1 h
    assumption
  all_goals
    obtain rfl := Option.some.inj h
    assumption

theorem regOffset_lt (r : Reg) : regOffset r < 0x3C := by cases r <;> decide

/-- Settles O20: an addressed offset is that of an existing register or element and lies in its window, so in no hole. -/
theorem unmappedOffsetIsBusError : Obligations.UnmappedOffsetIsBusError := by
  intro s a hole
  refine transact_of_not_addressed fun g ha => ?_
  obtain ⟨⟨-, hword⟩, ht⟩ := addressed_eq_some_iff.1 ha
  have hoff := offsetOf_of_target hword ht
  have hend := lt_windowEnd_of_target ht
  have hin := inRange_of_addressed ha
  cases g with
  | reg r =>
    have hr := regOffset_lt r
    simp only [offsetOf, Target.windowEnd] at hoff hend
    omega
  | tile d k =>
    simp only [offsetOf, Target.windowEnd, Target.inRange, Config.cellCount, Config.mapWidth] at hoff hend hin
    omega
  | _ =>
    simp only [offsetOf, Target.windowEnd, Target.inRange, Config.palDepth, Config.fbSize] at hoff hend hin
    omega

/-! ### The single-word windows (20_memory.md R74, R75) -/

/-- Settles O17: a write to an element of PAL, RGB or IDX is the response alone. -/
theorem readOnlyWindowWritesIgnored : Obligations.ReadOnlyWindowWritesIgnored := fun _ v j hl =>
  ⟨fun hj => transact_writeAt (g := .pal j) v hl hj, fun hj => transact_writeAt (g := .rgb j) v hl hj,
    fun hj => transact_writeAt (g := .idx j) v hl hj⟩

/-- What FB stores of a word: its low FIELD_W bits (20_memory.md R75). -/
theorem truncField_setWidth_toNat {c : Config} (hw : c.fieldW ≤ 9) (v : Word) :
    (c.truncField (v.setWidth 9)).toNat = v.toNat % 2 ^ c.fieldW := by
  rw [truncField_toNat hw, BitVec.toNat_setWidth, Nat.mod_mod_of_dvd _ (Nat.pow_dvd_pow 2 hw)]

/-- A value of FIELD_W bits is read from FB as it is stored (10_state.md R43). -/
theorem truncField_of_lt {c : Config} (hw : c.fieldW ≤ 9) {x : BitVec 9} (hx : x.toNat < 2 ^ c.fieldW) :
    c.truncField x = x :=
  BitVec.eq_of_toNat_eq (by rw [truncField_toNat hw, Nat.mod_eq_of_lt hx])

/-- Settles O21, window by window: the two writes, then the five reads. -/
theorem windowWordViews : Obligations.WindowWordViews := by
  intro s p v hl
  have hw := legal_fieldW_le hl
  refine ⟨fun hp => ⟨_, transact_writeAt (g := .fb p) v hl hp, rfl, ⟨_, memGet_memSet_same _ _ _, truncField_setWidth_toNat hw v⟩,
      fun q hq => memGet_memSet_other _ _ hq⟩,
    fun hp => ⟨_, transact_writeAt (g := .raw p) v hl hp, rfl, memGet_memSet_same _ _ _, fun q hq => memGet_memSet_other _ _ hq⟩,
    fun x hp hx hlt => transact_readAt_written (g := .fb p) hl hp ?_,
    fun x hp hx => transact_readAt_written (g := .raw p) hl hp (readElem_written s hx),
    fun x hp hx => transact_readAt_written (g := .pal p) hl hp ?_,
    fun x hp hx => transact_readAt_written (g := .rgb p) hl hp ?_,
    fun x hp hx => transact_readAt_written (g := .idx p) hl hp ?_⟩
  · rw [readTarget, readFb, readElem_written s hx, truncField_of_lt hw hlt]
  · rw [readTarget, readPal, readElem_written s hx]
  · rw [readTarget, readRgb, readElem_written s hx]
  · rw [readTarget, readIdx, readElem_written s hx]

end Sys2Proof.Machine

/-! PROOFS of the family 30_encoding.md: the rows of the opcode map as arithmetic, the decoder and the encoder, and BADCMD. -/

namespace Sys2Proof.Machine

/-! ### Masks and fields of a word (30_encoding.md R91, R92) -/

/-- A mask that clears bits `b-1:a` and keeps the rest. -/
theorem and_clearing_mask_toNat {mask : Word} {a b : Nat} (hab : a ≤ b)
    (hmask : ∀ j < 32, mask.getLsbD j = (decide (j < a) || decide (b ≤ j))) (w : Word) :
    (w &&& mask).toNat = 2 ^ b * (w.toNat / 2 ^ b) + w.toNat % 2 ^ a := by
  have low : w.toNat % 2 ^ a < 2 ^ b :=
    (Nat.mod_lt _ (Nat.two_pow_pos a)).trans_le (Nat.pow_le_pow_right (by norm_num) hab)
  apply Nat.eq_of_testBit_eq
  intro j
  have kept : (w.getLsbD j && mask.getLsbD j) = (w.getLsbD j && (decide (j < a) || decide (b ≤ j))) := by
    rcases lt_or_ge j 32 with hj | hj
    · rw [hmask j hj]
    · rw [BitVec.getLsbD_of_ge w j hj, Bool.false_and, Bool.false_and]
  rw [BitVec.testBit_toNat, BitVec.getLsbD_and, kept, Nat.testBit_two_pow_mul_add _ low, Nat.testBit_mod_two_pow,
    Nat.testBit_div_two_pow, BitVec.testBit_toNat]
  split_ifs with hb
  · simp [Nat.not_le.2 hb, Bool.and_comm]
  · have hbj : b ≤ j := Nat.not_lt.1 hb
    simp [hbj, Nat.sub_add_cancel hbj, BitVec.testBit_toNat]

/-- An operand placed above a match word is added to it (30_encoding.md R96). -/
theorem or_shiftLeft_toNat {v : Word} {n k : Nat} (hv : v.toNat < 2 ^ k) (hn : n * 2 ^ k < 2 ^ 32) :
    (v ||| (BitVec.ofNat 32 n <<< k)).toNat = v.toNat + n * 2 ^ k := by
  have hn32 : n < 2 ^ 32 := (Nat.le_mul_of_pos_right n (Nat.two_pow_pos k)).trans_lt hn
  rw [BitVec.toNat_or, BitVec.toNat_shiftLeft, BitVec.toNat_ofNat, Nat.mod_eq_of_lt hn32, Nat.shiftLeft_eq,
    Nat.mod_eq_of_lt hn, Nat.or_comm, ← Nat.shiftLeft_eq, ← Nat.shiftLeft_add_eq_or_of_lt hv, Nat.add_comm]

theorem lvlField_eq (w : Word) : lvlField w = w.toNat / 2 ^ 8 % 2 ^ 4 := by
  rw [lvlField, BitVec.extractLsb'_toNat, Nat.shiftRight_eq_div_pow]

theorem idxField_eq (w : Word) : idxField w = w.toNat / 2 ^ 16 % 2 ^ 9 := by
  rw [idxField, BitVec.extractLsb'_toNat, Nat.shiftRight_eq_div_pow]

/-! ### The rows of the opcode map (30_encoding.md R93) -/

theorem accepts_iff {r : OpRow} {w : Word} : r.accepts w = true ↔ w &&& r.mask = r.value := beq_iff_eq

/-- A row without an operand matches one word. -/
theorem accepts_iff_of_full_mask {r : OpRow} (hm : r.mask = BitVec.allOnes 32) {w : Word} :
    r.accepts w = true ↔ w.toNat = r.value.toNat := by
  rw [accepts_iff, hm, BitVec.and_allOnes, BitVec.toNat_inj]

theorem rowDecode_accepts_iff {w : Word} : rowDecode.accepts w = true ↔ w.toNat = 1 := accepts_iff_of_full_mask rfl

theorem rowRender_accepts_iff {w : Word} : rowRender.accepts w = true ↔ w.toNat = 3 := accepts_iff_of_full_mask rfl

theorem rowExpand_accepts_iff {w : Word} : rowExpand.accepts w = true ↔ w.toNat = 4 := accepts_iff_of_full_mask rfl

/-- BUILD_PAL's must-be-0 bits are 31:12. -/
theorem rowBuildPal_accepts_iff {w : Word} :
    rowBuildPal.accepts w = true ↔ w.toNat % 2 ^ 8 = 2 ∧ w.toNat / 2 ^ 12 = 0 := by
  have masked := and_clearing_mask_toNat (mask := rowBuildPal.mask) (a := 8) (b := 12) (by norm_num) (by decide) w
  have value : rowBuildPal.value.toNat = 2 := rfl
  rw [accepts_iff, ← BitVec.toNat_inj, masked, value]
  omega

/-- LOOKUP's must-be-0 bits are 31:25 and 15:8. -/
theorem rowLookup_accepts_iff {w : Word} :
    rowLookup.accepts w = true ↔ w.toNat % 2 ^ 16 = 5 ∧ w.toNat / 2 ^ 25 = 0 := by
  have masked := and_clearing_mask_toNat (mask := rowLookup.mask) (a := 16) (b := 25) (by norm_num) (by decide) w
  have value : rowLookup.value.toNat = 5 := rfl
  rw [accepts_iff, ← BitVec.toNat_inj, masked, value]
  omega

/-! ### Encoder and decoder (30_encoding.md R92-R97) -/

/-- The word of a command as a number, as the host script writes it (30_encoding.md R96). -/
def wordNumber : Instr → Nat
  | .decode => 1
  | .buildPal lvl => 2 + lvl * 2 ^ 8
  | .render => 3
  | .expand => 4
  | .lookup idx => 5 + idx * 2 ^ 16

theorem wellFormed_buildPal_iff {lvl : Nat} : (Instr.buildPal lvl).wellFormed = true ↔ lvl < 16 := decide_eq_true_iff

theorem wellFormed_lookup_iff {idx : Nat} : (Instr.lookup idx).wellFormed = true ↔ idx < 512 := decide_eq_true_iff

theorem encode_toNat {i : Instr} (h : i.wellFormed = true) : (encode i).toNat = wordNumber i := by
  cases i with
  | decode => rfl
  | buildPal lvl =>
    have hlvl := wellFormed_buildPal_iff.1 h
    exact or_shiftLeft_toNat (v := rowBuildPal.value) (by decide) (by omega)
  | render => rfl
  | expand => rfl
  | lookup idx =>
    have hidx := wellFormed_lookup_iff.1 h
    exact or_shiftLeft_toNat (v := rowLookup.value) (by decide) (by omega)

/-- The decoder finds exactly the well-formed command whose word it is given: the rows exclude each other by OP, and the
must-be-0 bits leave nothing but the operand. -/
theorem decode_eq_ok_iff {w : Word} {i : Instr} : decode w = .ok i ↔ i.wellFormed = true ∧ w.toNat = wordNumber i := by
  constructor
  · intro h
    unfold decode at h
    split_ifs at h with hdecode hbuild hrender hexpand hlookup
    all_goals obtain rfl := Except.ok.inj h
    · exact ⟨rfl, rowDecode_accepts_iff.1 hdecode⟩
    · obtain ⟨hop, hzero⟩ := rowBuildPal_accepts_iff.1 hbuild
      rw [wellFormed_buildPal_iff, wordNumber, lvlField_eq]
      omega
    · exact ⟨rfl, rowRender_accepts_iff.1 hrender⟩
    · exact ⟨rfl, rowExpand_accepts_iff.1 hexpand⟩
    · obtain ⟨hop, hzero⟩ := rowLookup_accepts_iff.1 hlookup
      rw [wellFormed_lookup_iff, wordNumber, idxField_eq]
      omega
  · rintro ⟨hwf, hw⟩
    unfold decode
    cases i with
    | decode => rw [if_pos (rowDecode_accepts_iff.2 hw)]
    | buildPal lvl =>
      have hlvl := wellFormed_buildPal_iff.1 hwf
      rw [wordNumber] at hw
      have operand : lvlField w = lvl := by rw [lvlField_eq]; omega
      rw [if_neg (mt rowDecode_accepts_iff.1 (by omega)), if_pos (rowBuildPal_accepts_iff.2 (by omega)), operand]
    | render =>
      rw [wordNumber] at hw
      rw [if_neg (mt rowDecode_accepts_iff.1 (by omega)), if_neg (mt rowBuildPal_accepts_iff.1 (by omega)),
        if_pos (rowRender_accepts_iff.2 hw)]
    | expand =>
      rw [wordNumber] at hw
      rw [if_neg (mt rowDecode_accepts_iff.1 (by omega)), if_neg (mt rowBuildPal_accepts_iff.1 (by omega)),
        if_neg (mt rowRender_accepts_iff.1 (by omega)), if_pos (rowExpand_accepts_iff.2 hw)]
    | lookup idx =>
      have hidx := wellFormed_lookup_iff.1 hwf
      rw [wordNumber] at hw
      have operand : idxField w = idx := by rw [idxField_eq]; omega
      rw [if_neg (mt rowDecode_accepts_iff.1 (by omega)), if_neg (mt rowBuildPal_accepts_iff.1 (by omega)),
        if_neg (mt rowRender_accepts_iff.1 (by omega)), if_neg (mt rowExpand_accepts_iff.1 (by omega)),
        if_pos (rowLookup_accepts_iff.2 (by omega)), operand]

/-- Settles O1: the word of a well-formed command has the number the decoder looks for. -/
theorem decodeOfEncode : Obligations.DecodeOfEncode := fun _ hwf => decode_eq_ok_iff.2 ⟨hwf, encode_toNat hwf⟩

theorem disassemble_of_decode {w : Word} {i : Instr} (h : decode w = .ok i) : disassemble w = .command i := by
  rw [disassemble, h]

/-- Settles O2: a word is determined by its number, and assembling a command is encoding it. -/
theorem encodeOfDecode : Obligations.EncodeOfDecode := by
  intro w i h
  obtain ⟨hwf, hw⟩ := decode_eq_ok_iff.1 h
  have back : encode i = w := BitVec.eq_of_toNat_eq ((encode_toNat hwf).trans hw.symm)
  have hdis := disassemble_of_decode h
  exact ⟨back, hwf, hdis, by rw [hdis]; exact back⟩

/-- R94's conditions leave exactly the words of the well-formed commands. -/
theorem exists_decode_ok_iff {w : Word} : (∃ i, decode w = .ok i) ↔ ¬ illegalWord w := by
  simp only [decode_eq_ok_iff]
  unfold illegalWord
  constructor
  · rintro ⟨i, hwf, hw⟩
    cases i with
    | buildPal lvl =>
      have hlvl := wellFormed_buildPal_iff.1 hwf
      simp only [wordNumber] at hw
      omega
    | lookup idx =>
      have hidx := wellFormed_lookup_iff.1 hwf
      simp only [wordNumber] at hw
      omega
    | _ =>
      simp only [wordNumber] at hw
      omega
  · intro hlegal
    have op : w.toNat % 256 = 1 ∨ w.toNat % 256 = 2 ∨ w.toNat % 256 = 3 ∨ w.toNat % 256 = 4 ∨ w.toNat % 256 = 5 := by omega
    obtain h | h | h | h | h := op
    · exact ⟨.decode, rfl, by simp only [wordNumber]; omega⟩
    · exact ⟨.buildPal (w.toNat / 256), wellFormed_buildPal_iff.2 (by omega), by simp only [wordNumber]; omega⟩
    · exact ⟨.render, rfl, by simp only [wordNumber]; omega⟩
    · exact ⟨.expand, rfl, by simp only [wordNumber]; omega⟩
    · exact ⟨.lookup (w.toNat / 65536), wellFormed_lookup_iff.2 (by omega), by simp only [wordNumber]; omega⟩

/-- Settles O3: legality as above, then the rows of the opcode map one by one. -/
theorem decodeLegalExactly : Obligations.DecodeLegalExactly := by
  refine fun w => ⟨exists_decode_ok_iff, ?_, fun h => ?_, ?_, ?_, fun h => ?_⟩
  · rintro rfl
    exact decodeOfEncode .decode rfl
  · obtain ⟨hop, hzero⟩ := rowBuildPal_accepts_iff.1 (accepts_iff.2 h)
    exact decode_eq_ok_iff.2 ⟨wellFormed_buildPal_iff.2 (by omega), by rw [wordNumber]; omega⟩
  · rintro rfl
    exact decodeOfEncode .render rfl
  · rintro rfl
    exact decodeOfEncode .expand rfl
  · obtain ⟨hop, hzero⟩ := rowLookup_accepts_iff.1 (accepts_iff.2 h)
    exact decode_eq_ok_iff.2 ⟨wellFormed_lookup_iff.2 (by omega), by rw [wordNumber]; omega⟩

/-- Settles O4: seven legal words of the spec and six it refuses, each computed. -/
theorem specWordsDecode : Obligations.SpecWordsDecode := by
  unfold Obligations.SpecWordsDecode
  decide

/-! ### BADCMD (30_encoding.md R94) -/

/-- The completion step of an illegal word takes the error BADCMD. -/
theorem completionStep_of_illegalWord {s : State} (hw : illegalWord s.latch.cmdw) :
    completionStep s = .next (raiseError .badCmd s.latch.cmdw s) := by
  cases hd : decode s.latch.cmdw with
  | ok i => exact absurd hw (exists_decode_ok_iff.1 ⟨i, hd⟩)
  | error e => rw [completionStep, hd]

/-- Settles O6: acceptance looks at no word, and the ENGINE's turn is the completion step, which takes BADCMD. -/
theorem illegalWordEndsInBadcmd : Obligations.IllegalWordEndsInBadcmd := by
  obtain ⟨-, -, acceptsCmdWrite⟩ := idleBlockPerformsAccesses
  refine ⟨fun s w rest hl he hh hi _ => ⟨_, acceptsCmdWrite s w rest hl he hh hi, rfl, rfl, rfl, hh, rfl⟩,
    fun s hl he ht hw => ?_⟩
  rw [step_eq_completionStep hl he ht]
  exact completionStep_of_illegalWord (s := { s with inputs := afterTurn s.inputs }) hw

end Sys2Proof.Machine

/-! PROOFS of the family 40_sprite_sheet_decoder.md: DECODE's outcomes, the legal factors, and the round trip through a palette. -/

namespace Sys2Proof.Machine

/-! ### The checks and the three outcomes of DECODE (40_sprite_sheet_decoder.md R102) -/

theorem badImage_true_iff {c : Config} {d : Word} : badImage c d = true ↔
    lowHalf d = 0 ∨ highHalf d = 0 ∨ c.rawCap < lowHalf d * highHalf d := by
  rw [← Bool.not_eq_false, badImage_false_iff]
  omega

theorem badQ_true_iff {c : Config} {q : BitVec 9} : badQ c q = true ↔ q = 0 ∨ c.nSub ≤ 255 / q.toNat := by
  rw [badQ, Bool.or_eq_true, beq_iff_eq, decide_eq_true_iff, quant]

theorem badQ_false_iff {c : Config} {q : BitVec 9} : badQ c q = false ↔ q ≠ 0 ∧ 255 / q.toNat < c.nSub := by
  rw [← Bool.not_eq_true, badQ_true_iff, not_or, not_le]

theorem exec_decode_of_badImage {s : State} (hi : badImage s.cfg s.latch.sdim = true) :
    exec .decode s = .next (raiseError .decodeError s.latch.sdim s) := if_pos hi

theorem exec_decode_of_badQ {s : State} (hi : badImage s.cfg s.latch.sdim = false) (hq : badQ s.cfg s.latch.q = true) :
    exec .decode s = .next (raiseError .qConfig (s.latch.q.setWidth 32) s) := by
  rw [exec, execDecode, if_neg (by simp [hi]), if_pos hq]

theorem exec_decode_of_legal {s : State} (hi : badImage s.cfg s.latch.sdim = false) (hq : badQ s.cfg s.latch.q = false) :
    exec .decode s = .next (complete (installSheet (decodeAll s))) := by
  rw [exec, execDecode, if_neg (by simp [hi]), if_neg (by simp [hq])]

/-- Settles O28: the image is checked before the factor, and each error is `raiseError` alone. -/
theorem decodeErrorsInOrder : Obligations.DecodeErrorsInOrder := by
  refine fun s => ⟨fun hi => ?_, fun hw hh hfit hq => ?_⟩
  · exact exec_decode_of_badImage (badImage_true_iff.2 hi)
  · exact exec_decode_of_badQ (badImage_false_iff.2 ⟨hw, hh, hfit⟩) (badQ_true_iff.2 hq)

/-! ### The legal quantization factors (40_sprite_sheet_decoder.md R103) -/

/-- Legality without the division: the N_SUB buckets of Q values cover every channel value. -/
theorem badQ_false_iff_lt_mul {c : Config} {q : BitVec 9} : badQ c q = false ↔ 255 < c.nSub * q.toNat := by
  rw [badQ_false_iff]
  by_cases hq : q = 0
  · simp [hq]
  · have hpos : 0 < q.toNat := Nat.pos_of_ne_zero fun h => hq (BitVec.eq_of_toNat_eq h)
    rw [Nat.div_lt_iff_lt_mul hpos]
    exact and_iff_right hq

theorem badQ_false_iff_of_nSub_four {c : Config} {q : BitVec 9} (hn : c.nSub = 4) : badQ c q = false ↔ 64 ≤ q.toNat := by
  rw [badQ_false_iff_lt_mul, hn]
  omega

theorem badQ_false_iff_of_nSub_eight {c : Config} {q : BitVec 9} (hn : c.nSub = 8) : badQ c q = false ↔ 32 ≤ q.toNat := by
  rw [badQ_false_iff_lt_mul, hn]
  omega

/-- Settles O29: the two values of N_SUB, the monotonicity of the division, and each profile's N_SUB. -/
theorem legalQuantizationFactors : Obligations.LegalQuantizationFactors := by
  refine ⟨fun c q => ⟨badQ_false_iff_of_nSub_four, badQ_false_iff_of_nSub_eight, fun hq ch hch => ?_⟩, fun c hc q => ?_⟩
  · obtain ⟨-, hmax⟩ := badQ_false_iff.1 hq
    exact (Nat.div_le_div_right hch).trans_lt hmax
  · obtain rfl | rfl : c = Config.p216 ∨ c = Config.p512 := by simpa using hc
    · exact badQ_false_iff_of_nSub_four rfl
    · exact badQ_false_iff_of_nSub_eight rfl

/-! ### Quantizing and expanding (40_sprite_sheet_decoder.md R106) -/

/-- The level `v` of the palette of `n + 1` levels scales to a channel value of bucket `v`, where `n` is the highest bucket:
255 exceeds `n * q` by less than `q`, so `v * 255` exceeds `v * (n * q)` by less than one bucket's `n * q`. -/
theorem scale_div_of_le {v q : Nat} (hn : 1 ≤ 255 / q) (hv : v ≤ 255 / q) : scale v (levels q) / q = v := by
  have hq : 0 < q := Nat.pos_of_ne_zero fun h => by simp [h] at hn
  have split255 : 255 / q * q + 255 % q = 255 := Nat.div_add_mod' 255 q
  have hrest : v * (255 % q) < 255 / q * q :=
    calc v * (255 % q) ≤ 255 / q * (255 % q) := Nat.mul_le_mul_right _ hv
      _ < 255 / q * q := Nat.mul_lt_mul_of_pos_left (Nat.mod_lt 255 hq) hn
  have hscale : scale v (levels q) / q = v * 255 / (255 / q * q) := Nat.div_div_eq_div_mul _ _ _
  calc scale v (levels q) / q = v * (255 / q * q + 255 % q) / (255 / q * q) := by rw [hscale, split255]
    _ = v := by
      rw [Nat.mul_add, Nat.mul_comm v, Nat.mul_add_div (Nat.mul_pos hn hq), Nat.div_eq_of_lt hrest, Nat.add_zero]

/-- Settles O30: a channel value's bucket is at most the highest; the examples of R106 are computed. -/
theorem roundTripThroughPalette : Obligations.RoundTripThroughPalette := by
  refine ⟨fun q c _ _ hl hc => ?_, by decide, by decide⟩
  exact scale_div_of_le (Nat.le_of_succ_le_succ hl) (Nat.div_le_div_right hc)

/-! ### A DECODE that completes (40_sprite_sheet_decoder.md R102, R104, R105) -/

theorem dimWidth_eq_lowHalf (d : Word) : dimWidth d = lowHalf d := dimWidth_eq_mod d

theorem dimHeight_eq_highHalf (d : Word) : dimHeight d = highHalf d := dimHeight_eq_div d

theorem channel_eq_mod (v : Word) : channel v = v.toNat % 256 := by simp [channel]

/-- Under a legal Q the 3 bits of an IDX element hold the whole quotient (40_sprite_sheet_decoder.md R103). -/
theorem quantized_toNat {c : Config} {q : BitVec 9} (hl : c.legal = true) (hq : badQ c q = false) (v : Word) :
    (BitVec.ofNat 3 (quant (channel v) q.toNat)).toNat = channel v / q.toNat := by
  obtain ⟨-, hn, -⟩ := (Config.legal_iff c).1 hl
  obtain ⟨-, hmax⟩ := badQ_false_iff.1 hq
  have hle : channel v / q.toNat ≤ 255 / q.toNat := Nat.div_le_div_right (channel_le v)
  have hlt : channel v / q.toNat < 2 ^ 3 := by omega
  rw [quant, BitVec.toNat_ofNat, Nat.mod_eq_of_lt hlt]

/-- A turn at a written pixel makes no draw (10_state.md R47). -/
theorem decodePixel_draws_of_written {q : BitVec 9} {i : Nat} {s : State} (h : memGet s.raw i ≠ none) :
    (decodePixel q i s).draws = s.draws := by
  obtain ⟨v, hv⟩ := Option.ne_none_iff_exists'.1 h
  rw [decodePixel, writeIdx_draws, readRaw, readElem_written s hv]

theorem decodePixel_raw (q : BitVec 9) (i : Nat) (s : State) : (decodePixel q i s).raw = s.raw := by
  have hread : SameButDraws s (readRaw i s).2 := readElem_frame s.raw i s
  rw [decodePixel, writeIdx_raw, hread]

/-- DECODE of a wholly written image makes no draw. -/
theorem decodeAll_draws_of_written {s : State}
    (h : ∀ i, i < lowHalf s.latch.sdim * highHalf s.latch.sdim → memGet s.raw i ≠ none) :
    (decodeAll s).draws = s.draws := by
  rw [← dimWidth_eq_lowHalf, ← dimHeight_eq_highHalf] at h
  have main : (decodeAll s).raw = s.raw ∧ (decodeAll s).draws = s.draws := by
    refine forUpTo_keeps (P := fun t : State => t.raw = s.raw ∧ t.draws = s.draws) ⟨rfl, rfl⟩ fun i t hi ⟨hraw, hdraws⟩ => ?_
    have hwritten : memGet t.raw i ≠ none := hraw ▸ h i hi
    exact ⟨(decodePixel_raw _ i t).trans hraw, (decodePixel_draws_of_written hwritten).trans hdraws⟩
  exact main.2

/-- Settles O27: the loop's frame, and what it leaves in IDX below and above the image's size. -/
theorem decodeQuantizesTheImage : Obligations.DecodeQuantizesTheImage := by
  intro s hl hw hh hfit hq0 hqmax
  have hq : badQ s.cfg s.latch.q = false := badQ_false_iff.2 ⟨hq0, hqmax⟩
  have decoded := decodeAll_idx s
  refine ⟨_, exec_decode_of_legal (badImage_false_iff.2 ⟨hw, hh, hfit⟩) hq, ?_, fun i hi => ?_, decoded.above,
    decodeAll_draws_of_written⟩
  · rw [decodeAll_frame]
    rfl
  · obtain ⟨v, hwritten, hget⟩ := decoded.below i hi
    refine ⟨_, hget, ?_, fun x hx => ?_⟩
    · rw [quantized_toNat hl hq]
      exact Nat.div_le_div_right (channel_le v)
    · rw [quantized_toNat hl hq, hwritten x hx, channel_eq_mod]

end Sys2Proof.Machine

/-! PROOFS of the family 41_palette_lookup_engine.md: the scaling table, the cube and its index, and the outcomes of
LOOKUP and EXPAND. -/

namespace Sys2Proof.Machine

/-! ### BUILD_PAL (41_palette_lookup_engine.md R111, R112, R115) -/

/-- Settles O31, by computing R111's seven rows. -/
theorem channelScalingTable : Obligations.ChannelScalingTable := ⟨rfl, rfl, rfl, rfl, rfl, rfl, rfl⟩

/-- Settles O32: the loops' frame, the cube they write, and what they leave above it. -/
theorem buildPalWritesTheCube : Obligations.BuildPalWritesTheCube := by
  intro s l _ h2 hm
  refine ⟨_, exec_buildPal_of_legal_level h2 hm, ?_, palCount_toNat (hm.trans (lMax_le _)), fun r g b hr hg hb => ?_,
    fun j hj => ?_⟩
  · rw [buildEntries_frame]
    rfl
  · exact ⟨_, buildEntries_get s hr hg hb, levelEntry_toNat hr hg hb⟩
  · exact (buildEntries_pal l s j).trans (if_neg (by omega))

/-- R112's index in Horner form: blue is the last digit in base L, and red and green are those of the rest. -/
theorem levelIndex_eq_digits (l r g b : Nat) : levelIndex l r g b = b + (g + r * l) * l := by
  rw [levelIndex]
  ring

/-- Levels with one index are equal, digit by digit. -/
theorem levelIndex_inj {l r g b r' g' b' : Nat} (hg : g < l) (hb : b < l) (hg' : g' < l) (hb' : b' < l)
    (h : levelIndex l r g b = levelIndex l r' g' b') : r = r' ∧ g = g' ∧ b = b' := by
  rw [levelIndex_eq_digits, levelIndex_eq_digits] at h
  obtain ⟨blue, rest⟩ := pixel_index_inj hb hb' h
  obtain ⟨green, red⟩ := pixel_index_inj hg hg' rest
  exact ⟨red, green, blue⟩

/-- Every number is the index of its digits in base L. -/
theorem levelIndex_digits (l j : Nat) : levelIndex l (j / l / l) (j / l % l) (j % l) = j := by
  rw [levelIndex_eq_digits, Nat.mod_add_div', Nat.mod_add_div']

/-- Settles O33: onto by the digits of the index, in range, and injective. -/
theorem paletteIndexIsBijection : Obligations.PaletteIndexIsBijection := by
  refine fun l j => ⟨fun hj => ?_, fun r g b hr hg hb => ⟨levelIndex_lt hr hg hb, fun r' g' b' _ hg' hb' h => ?_⟩⟩
  · have hl : 0 < l := Nat.pos_of_ne_zero fun h => by simp [h] at hj
    have hred : j / l / l < l := by
      rw [Nat.div_div_eq_div_mul]
      exact Nat.div_lt_of_lt_mul hj
    exact ⟨_, _, _, hred, Nat.mod_lt _ hl, Nat.mod_lt _ hl, levelIndex_digits l j⟩
  · exact levelIndex_inj hg hb hg' hb' h

/-! ### LOOKUP's errors (41_palette_lookup_engine.md R114) -/

theorem exec_lookup_of_no_palette {i : Nat} {s : State} (hv : s.status.palValid = false) :
    exec (.lookup i) s = .next (raiseError .noPal 0 s) := if_pos hv

theorem exec_lookup_of_out_of_range {i : Nat} {s : State} (hv : s.status.palValid = true) (hi : s.palCount.toNat ≤ i) :
    exec (.lookup i) s = .next (raiseError .palRange (BitVec.ofNat 32 i) s) := by
  rw [exec, execLookup, if_neg (by simp [hv]), if_pos hi]

/-- Settles O37: the palette is checked before the index, and each error is `raiseError` alone. -/
theorem lookupErrorsInOrder : Obligations.LookupErrorsInOrder := fun _ _ =>
  ⟨exec_lookup_of_no_palette, exec_lookup_of_out_of_range⟩

/-! ### EXPAND's read of the pixels (41_palette_lookup_engine.md R113) -/

/-- The first `n` FB elements are written, each with a value of FIELD_W bits (10_state.md R43). -/
def FbWritten (n : Nat) (s : State) : Prop := ∀ p, p < n → ∃ v, memGet s.fb p = some v ∧ v.toNat < 2 ^ s.cfg.fieldW

theorem readFb_written {p : Nat} {v : BitVec 9} {s : State} (hw : s.cfg.fieldW ≤ 9) (h : memGet s.fb p = some v)
    (hv : v.toNat < 2 ^ s.cfg.fieldW) : readFb p s = (v, s) := by
  rw [readFb, readElem_written s h, truncField_of_lt hw hv]

/-- A read of written pixels changes nothing and gives each pixel's value at its place. -/
theorem readFbRun_written {n : Nat} {s : State} (hw : s.cfg.fieldW ≤ 9) (h : FbWritten n s) :
    (readFbRun n s).2 = s ∧ ∀ p, p < n → (readFbRun n s).1[p]? = memGet s.fb p := by
  induction n with
  | zero => exact ⟨rfl, fun p hp => absurd hp (Nat.not_lt_zero p)⟩
  | succ n ih =>
    obtain ⟨same, values⟩ := ih fun p hp => h p (Nat.lt_succ_of_lt hp)
    obtain ⟨v, hv, hlt⟩ := h n (Nat.lt_succ_self n)
    rw [readFbRun, same, readFb_written hw hv hlt]
    refine ⟨rfl, fun p hp => ?_⟩
    obtain hp | rfl := Nat.lt_succ_iff_lt_or_eq.1 hp
    · rw [List.getElem?_append_left (by rwa [readFbRun_length]), values p hp]
    · rw [List.getElem?_append_right (by rw [readFbRun_length]), readFbRun_length, Nat.sub_self, hv]
      rfl

theorem firstOutOfRange_eq_none {n : BitVec 10} {vs : List (BitVec 9)}
    (h : ∀ (p : Nat) (v : BitVec 9), vs[p]? = some v → v.toNat < n.toNat) : firstOutOfRange n vs = none := by
  refine List.findIdx?_eq_none_iff.2 fun v hv => ?_
  obtain ⟨p, hp⟩ := List.mem_iff_getElem?.1 hv
  exact decide_eq_false (Nat.not_le.2 (h p v hp))

theorem firstOutOfRange_eq_some {n : BitVec 10} {vs : List (BitVec 9)} {p : Nat} {v : BitVec 9} (hp : vs[p]? = some v)
    (hv : n.toNat ≤ v.toNat) (below : ∀ (q : Nat) (w : BitVec 9), q < p → vs[q]? = some w → w.toNat < n.toNat) :
    firstOutOfRange n vs = some p := by
  obtain ⟨hlen, rfl⟩ := List.getElem?_eq_some_iff.1 hp
  refine List.findIdx?_eq_some_iff_getElem.2 ⟨hlen, decide_eq_true hv, fun q hq => ?_⟩
  have hlt := below q _ hq (List.getElem?_eq_getElem (hq.trans hlen))
  simpa using hlt

/-! ### The three outcomes of EXPAND (41_palette_lookup_engine.md R113) -/

theorem exec_expand_of_no_palette {s : State} (hv : s.status.palValid = false) :
    exec .expand s = .next (raiseError .noPal 0 s) := if_pos hv

theorem exec_expand_of_out_of_range {s : State} {p : Nat} (hv : s.status.palValid = true)
    (hf : firstOutOfRange s.palCount (readFbRun s.cfg.fbSize s).1 = some p) :
    exec .expand s = .next (raiseError .palRange (BitVec.ofNat 32 p) (readFbRun s.cfg.fbSize s).2) := by
  simp only [exec, execExpand, hv, hf]
  rfl

theorem exec_expand_of_in_range {s : State} (hv : s.status.palValid = true)
    (hf : firstOutOfRange s.palCount (readFbRun s.cfg.fbSize s).1 = none) :
    exec .expand s = .next
      (complete (forUpTo s.cfg.fbSize (expandPixel (readFbRun s.cfg.fbSize s).1) (readFbRun s.cfg.fbSize s).2)) := by
  simp only [exec, execExpand, hv, hf]
  rfl

/-- Settles O39: the palette is checked first, and the read of the pixels finds the lowest failing one. -/
theorem expandErrorsInOrder : Obligations.ExpandErrorsInOrder := by
  refine fun s => ⟨exec_expand_of_no_palette, fun p hl hv written hp fails below => ?_⟩
  obtain ⟨same, values⟩ := readFbRun_written (legal_fieldW_le hl) written
  obtain ⟨v, hget, -⟩ := written p hp
  have lowest : firstOutOfRange s.palCount (readFbRun s.cfg.fbSize s).1 = some p := by
    refine firstOutOfRange_eq_some ((values p hp).trans hget) (fails v hget) fun q w hq hw => ?_
    exact below q w hq (values q (hq.trans hp) ▸ hw)
  rw [exec_expand_of_out_of_range hv lowest, same]
  rfl

/-! ### An EXPAND that completes (41_palette_lookup_engine.md R113) -/

/-- A turn whose pixel has a written palette entry writes that entry, and makes no draw. -/
theorem expandPixel_written {vs : List (BitVec 9)} {p : Nat} {v : BitVec 9} {e : BitVec 24} {s : State}
    (hv : vs[p]? = some v) (he : memGet s.pal v.toNat = some e) : expandPixel vs p s = writeRgb p e s := by
  rw [expandPixel, List.getD_eq_getElem?_getD, hv, Option.getD_some, readPal, readElem_written s he]

/-- The RGB elements below `n` are their pixels' palette entries, and nothing else differs from `s`. -/
structure ExpandedBelow (s : State) (n : Nat) (t : State) : Prop where
  frame : t = { s with rgb := t.rgb }
  below : ∀ p v, p < n → memGet s.fb p = some v → memGet t.rgb p = memGet s.pal v.toNat
  above : ∀ p, n ≤ p → memGet t.rgb p = memGet s.rgb p

theorem ExpandedBelow.next {s t : State} {n : Nat} {v : BitVec 9} {e : BitVec 24} (h : ExpandedBelow s n t)
    (hv : memGet s.fb n = some v) (he : memGet s.pal v.toNat = some e) : ExpandedBelow s (n + 1) (writeRgb n e t) := by
  refine ⟨?_, fun p w hp hw => ?_, fun p hp => ?_⟩
  · rw [h.frame]
    rfl
  · rw [writeRgb_rgb]
    obtain hp | rfl := Nat.lt_succ_iff_lt_or_eq.1 hp
    · rw [memGet_memSet_other _ _ hp.ne, h.below p w hp hw]
    · obtain rfl : v = w := Option.some.inj (hv.symm.trans hw)
      rw [memGet_memSet_same, he]
  · rw [writeRgb_rgb, memGet_memSet_other _ _ (by omega), h.above p (by omega)]

/-- EXPAND's last loop, over written pixels whose palette entries are written. -/
theorem expandPixels_expandedBelow {n : Nat} {vs : List (BitVec 9)} {s : State}
    (h : ∀ p, p < n → ∃ v e, vs[p]? = some v ∧ memGet s.fb p = some v ∧ memGet s.pal v.toNat = some e) :
    ExpandedBelow s n (forUpTo n (expandPixel vs) s) := by
  have start : ExpandedBelow s 0 s := ⟨rfl, fun p _ hp => absurd hp (Nat.not_lt_zero p), fun _ _ => rfl⟩
  refine forUpTo_rule start fun p t hp ht => ?_
  obtain ⟨v, e, hvs, hv, he⟩ := h p hp
  have hpal : t.pal = s.pal := by rw [ht.frame]
  rw [expandPixel_written hvs (hpal ▸ he)]
  exact ht.next hv he

/-- Settles O38: the pixels are read as written, none fails, and the last loop writes their entries. -/
theorem expandMapsEveryPixel : Obligations.ExpandMapsEveryPixel := by
  intro s hl hv pixels
  have written : FbWritten s.cfg.fbSize s := fun p hp => by
    obtain ⟨v, hget, hlt, -⟩ := pixels p hp
    exact ⟨v, hget, hlt⟩
  obtain ⟨same, values⟩ := readFbRun_written (legal_fieldW_le hl) written
  have inRange : firstOutOfRange s.palCount (readFbRun s.cfg.fbSize s).1 = none := by
    refine firstOutOfRange_eq_none fun p v hp => ?_
    have hsize : p < s.cfg.fbSize := by
      rw [← readFbRun_length s.cfg.fbSize s]
      exact (List.getElem?_eq_some_iff.1 hp).1
    obtain ⟨w, hget, -, hcount, -⟩ := pixels p hsize
    obtain rfl : v = w := Option.some.inj (hp.symm.trans ((values p hsize).trans hget))
    exact hcount
  have expanded : ExpandedBelow s s.cfg.fbSize (forUpTo s.cfg.fbSize (expandPixel (readFbRun s.cfg.fbSize s).1) s) := by
    refine expandPixels_expandedBelow fun p hp => ?_
    obtain ⟨v, hget, -, -, hentry⟩ := pixels p hp
    obtain ⟨e, he⟩ := Option.ne_none_iff_exists'.1 hentry
    exact ⟨v, e, (values p hp).trans hget, hget, he⟩
  have ends := exec_expand_of_in_range hv inRange
  rw [same] at ends
  refine ⟨_, ends, ?_, expanded.below, expanded.above⟩
  rw [expanded.frame]
  rfl

end Sys2Proof.Machine

/-! PROOFS of the family 42_tile_map_store.md: the wrapped lookup, the mirrored tile, and the closed form of RENDER. -/

namespace Sys2Proof.Machine

/-! ### The wrapped lookup (42_tile_map_store.md R130-R132) -/

/-- Cells a multiple of MAP_WIDTH apart are one cell (R132). -/
theorem cellIndex_add_mul (c : Config) (x y k m : Int) :
    cellIndex c (x + k * (c.mapWidth : Int)) (y + m * (c.mapWidth : Int)) = cellIndex c x y := by
  simp only [cellIndex, Int.add_mul_emod_self_right]

/-- The cell's element number on unbounded integers (R131). -/
theorem cellIndex_cast (c : Config) (tx ty : Int) :
    (cellIndex c tx ty : Int) = tx % 2 ^ c.mapLog2 + ty % 2 ^ c.mapLog2 * 2 ^ c.mapLog2 := by
  have hpos : (2 : Int) ^ c.mapLog2 ≠ 0 := by positivity
  have hx := Int.emod_nonneg tx hpos
  have hy := Int.emod_nonneg ty hpos
  simp [cellIndex, Config.mapWidth, Int.toNat_of_nonneg hx, Int.toNat_of_nonneg hy]

/-- A colour word whose parts are all written reads as it is, and no draw is made (20_memory.md R76). -/
theorem readColor_of_writtenColor {s : State} {c : Nat} {color : BitVec 96} (h : writtenColor s c = some color) :
    readColor c s = (color, s) := by
  unfold writtenColor at h
  split at h
  · next p0 p1 p2 h0 h1 h2 =>
    obtain rfl := Option.some.inj h
    simp only [readColor, readTilePart_of_writtenPart h0, readTilePart_of_writtenPart h1, readTilePart_of_writtenPart h2]
  · cases h

/-- The lookup of a written cell returns what was written and changes nothing (R131). -/
theorem getCell_of_written {s : State} {tx ty : Int} {color : BitVec 96} {db : BitVec 2}
    (hc : writtenColor s (cellIndex s.cfg tx ty) = some color) (hd : memGet s.tileDb (cellIndex s.cfg tx ty) = some db) :
    getCell tx ty s = ((color, db), s) := by
  simp only [getCell, readColor_of_writtenColor hc, readTileDb, readElem_written s hd]

/-- Settles O40: the lookup depends on the coordinates through the cell's element number alone. -/
theorem tileLookupWraps : Obligations.TileLookupWraps := by
  refine ⟨fun s x y k m => ?_, cellIndex_cast, fun s tx ty n color db hn hc hd => ?_⟩
  · simp only [getCell, cellIndex_add_mul]
  · obtain rfl : n = cellIndex s.cfg tx ty := Int.ofNat_inj.1 (hn.trans (cellIndex_cast s.cfg tx ty).symm)
    exact getCell_of_written hc hd

/-! ### The mirrored tile (43_tilemap_rasterizer.md R146, R153) -/

/-- What a visit without transparency leaves is the sub-colour (R148). -/
@[simp] theorem blitted_opaque (c : Config) (v : BitVec 9) (old : Option (BitVec 9)) : blitted c false v old = some v := rfl

/-- Without transparency, a pixel of a tile inside the buffer holds the sub-colour its sheet element selects (R144-R149). -/
theorem blit_get_opaque {s : State} {xp yp x y sw : Nat} {color : BitVec 96} {db : BitVec 2} {si : BitVec 3}
    (hxp : xp + 8 ≤ s.cfg.fbW) (hyp : yp + 8 ≤ s.cfg.fbH) (hx : x < 8) (hy : y < 8)
    (hi : memGet s.idx (sheetElement db sw x y) = some si) :
    memGet (blit xp yp color db sw false s).fb ((xp + x) + (yp + y) * s.cfg.fbW) = some (sub s.cfg color si.toNat) := by
  have covered := (blit_get (xp := xp) (yp := yp) (color := color) (db := db) (sw := sw) (transp := false)
    (px := xp + x) (py := yp + y) (s := s) (by omega) (by omega)).1 x y si hx hy (by push_cast; ring) (by push_cast; ring) hi
  rw [covered, blitted_opaque]

/-- Every sheet element an 8×8 tile reads is one of the pattern's (R146). -/
theorem sheetElement_written {s : State} {sw : Nat} (pattern : ∀ sx sy, sx < 8 → sy < 8 → memGet s.idx (sx + sy * sw) ≠ none)
    (db : BitVec 2) {x y : Nat} (hx : x < 8) (hy : y < 8) : ∃ si, memGet s.idx (sheetElement db sw x y) = some si := by
  have inTile (m : Bool) {v : Nat} (hv : v < 8) : mirrored m v < 8 := by unfold mirrored; split <;> omega
  exact Option.ne_none_iff_exists'.1 (pattern _ _ (inTile _ hx) (inTile _ hy))

/-- Two pixels that read one sheet element, each of its own blit of the tile, hold the same value. -/
theorem blit_get_eq_of_sheetElement_eq {s : State} {xp yp sw x y x' y' : Nat} (color : BitVec 96) {db db' : BitVec 2}
    (hxp : xp + 8 ≤ s.cfg.fbW) (hyp : yp + 8 ≤ s.cfg.fbH)
    (pattern : ∀ sx sy, sx < 8 → sy < 8 → memGet s.idx (sx + sy * sw) ≠ none)
    (hx : x < 8) (hy : y < 8) (hx' : x' < 8) (hy' : y' < 8) (he : sheetElement db sw x y = sheetElement db' sw x' y') :
    memGet (blit xp yp color db sw false s).fb ((xp + x) + (yp + y) * s.cfg.fbW) =
      memGet (blit xp yp color db' sw false s).fb ((xp + x') + (yp + y') * s.cfg.fbW) := by
  obtain ⟨si, hi⟩ := sheetElement_written pattern db hx hy
  rw [blit_get_opaque hxp hyp hx hy hi, blit_get_opaque hxp hyp hx' hy' (he ▸ hi)]

/-- Settles O47: the mirrored tile's pixel and the plain tile's reversed one read the same sheet element. -/
theorem mirroringReversesTheTile : Obligations.MirroringReversesTheTile := by
  intro s xp yp color sw x y hxp hyp pattern hx hy
  have same {db : BitVec 2} {x' y' : Nat} (hx' : x' < 8) (hy' : y' < 8) (he : sheetElement db sw x y = sheetElement 0 sw x' y') :=
    blit_get_eq_of_sheetElement_eq color hxp hyp pattern hx hy hx' hy' he
  exact ⟨same (by omega) (by omega) rfl, same (by omega) hy rfl, same hx (by omega) rfl⟩

/-! ### The closed form of RENDER (43_tilemap_rasterizer.md R140-R150) -/

/-- A RENDER with a valid sheet of at least 8×8 runs its loops and completes (R140). -/
theorem exec_render_of_valid {s : State} (hv : s.status.sheetValid = true) (hw : 8 ≤ lowHalf s.sheetCur)
    (hh : 8 ≤ highHalf s.sheetCur) : exec .render s = .next (complete (renderTiles s)) := by
  rw [← dimWidth_eq_lowHalf] at hw
  rw [← dimHeight_eq_highHalf] at hh
  simp only [exec, execRender, hv, Bool.true_eq_false, if_false]
  rw [if_neg (by omega)]

/-- A loop of which turn `v₀` leads from `A` to `B`, while every other turn keeps either, ends in `B`. -/
theorem forIncl_passes {σ : Type} {A B : σ → Prop} {a b v₀ : Int} {f : Int → σ → σ} {s : σ} (ha : a ≤ v₀) (hb : v₀ ≤ b) (h0 : A s)
    (keepsA : ∀ v t, v ≠ v₀ → A t → A (f v t)) (keepsB : ∀ v t, v ≠ v₀ → B t → B (f v t)) (turn : ∀ t, A t → B (f v₀ t)) :
    B (forIncl a b f s) := by
  have main := forIncl_rule (P := fun v t => (v ≤ v₀ → A t) ∧ (v₀ < v → B t)) (f := f) (s := s) (show a ≤ b + 1 by omega)
    ⟨fun _ => h0, fun h => absurd h (by omega)⟩ fun v t _ _ ⟨before, after⟩ => by
      obtain h | rfl | h := lt_trichotomy v v₀
      · exact ⟨fun _ => keepsA v t h.ne (before h.le), fun _ => by omega⟩
      · exact ⟨fun _ => by omega, fun _ => turn t (before le_rfl)⟩
      · exact ⟨fun _ => by omega, fun _ => keepsB v t h.ne' (after h)⟩
  exact main.2 (by omega)

/-- `t` is a state of a RENDER started in `s` in which FB element `p` reads as `o`. -/
def FbHolds (s : State) (p : Nat) (o : Option (BitVec 9)) (t : State) : Prop := SameButFb s t ∧ memGet t.fb p = o

/-- The tile at column `xt` and row `yt` covers view pixel (px, py) (R142, R150). -/
def Covers (s : State) (xt yt : Int) (px py : Nat) : Prop := xt = (s.latch.xs + px) / 8 ∧ yt = (s.latch.ys + py) / 8

theorem SameButDraws.fb_eq {s t : State} (h : SameButDraws s t) : t.fb = s.fb := by rw [h]

theorem SameButFb.cfg_eq {s t : State} (h : SameButFb s t) : t.cfg = s.cfg := by rw [h]

theorem SameButFb.idx_eq {s t : State} (h : SameButFb s t) : t.idx = s.idx := by rw [h]

theorem SameButFb.tileDb_eq {s t : State} (h : SameButFb s t) : t.tileDb = s.tileDb := by rw [h]

theorem SameButFb.writtenColor_eq {s t : State} (h : SameButFb s t) (c : Nat) : writtenColor t c = writtenColor s c := by
  rw [h]
  rfl

/-- The lookup of a cell keeps what every FB element reads as. -/
theorem FbHolds.after_getCell {s t : State} {p : Nat} {o : Option (BitVec 9)} (h : FbHolds s p o t) (tx ty : Int) :
    FbHolds s p o (getCell tx ty t).2 := by
  have hd := getCell_frame tx ty t
  exact ⟨h.1.trans hd.sameButFb, (congrArg (memGet · p) hd.fb_eq).trans h.2⟩

/-- The visit of a tile that does not cover pixel (px, py) leaves its element alone (R142, R149). -/
theorem FbHolds.renderTile_other {s t : State} {px py sw : Nat} {o : Option (BitVec 9)} {transp : Bool} {xt yt : Int}
    (h : FbHolds s (px + py * s.cfg.fbW) o t) (hx : px < s.cfg.fbW) (hy : py < s.cfg.fbH) (hc : ¬ Covers s xt yt px py) :
    FbHolds s (px + py * s.cfg.fbW) o (renderTile s.latch.xs s.latch.ys sw transp yt xt t) := by
  obtain ⟨frame, holds⟩ := h.after_getCell xt yt
  have kept := (blit_get (xp := xt * 8 - s.latch.xs) (yp := yt * 8 - s.latch.ys) (color := (getCell xt yt t).1.1)
    (db := (getCell xt yt t).1.2) (sw := sw) (transp := transp) (px := px) (py := py) (by rwa [frame.cfg_eq]) (by rwa [frame.cfg_eq])).2
    fun x y hx8 hy8 ⟨ex, ey⟩ => hc ⟨by omega, by omega⟩
  rw [frame.cfg_eq] at kept
  exact ⟨h.1.trans (renderTile_frame _ _ _ _ _ _ _), kept.trans holds⟩

/-- The cell of the covering tile is the covering cell (R131, R150). -/
theorem Covers.cellIndex_eq {s : State} {xt yt : Int} {px py : Nat} (h : Covers s xt yt px py) :
    cellIndex s.cfg xt yt = coveringCell s px py := by
  obtain ⟨rfl, rfl⟩ := h
  simp [cellIndex, coveringCell, Config.mapWidth]

/-- The covering element is the one BLIT reads at the pixel's local coordinates (R146, R150). -/
theorem coveringElement_eq (s : State) (db : BitVec 2) (px py : Nat) :
    coveringElement s db px py =
      sheetElement db (dimWidth s.sheetCur) ((s.latch.xs + px) % 8).toNat ((s.latch.ys + py) % 8).toNat := by
  rw [dimWidth_eq_lowHalf]
  rfl

/-- The visit of the tile that covers pixel (px, py), where its cell and sheet element are written (R142-R149). -/
theorem FbHolds.renderTile_covering {s t : State} {px py : Nat} {o : Option (BitVec 9)} {transp : Bool} {xt yt : Int}
    {color : BitVec 96} {db : BitVec 2} {si : BitVec 3} (h : FbHolds s (px + py * s.cfg.fbW) o t) (hx : px < s.cfg.fbW)
    (hy : py < s.cfg.fbH) (hc : Covers s xt yt px py) (hcolor : writtenColor s (coveringCell s px py) = some color)
    (hdb : memGet s.tileDb (coveringCell s px py) = some db) (hi : memGet s.idx (coveringElement s db px py) = some si) :
    FbHolds s (px + py * s.cfg.fbW) (blitted s.cfg transp (sub s.cfg color si.toNat) o)
      (renderTile s.latch.xs s.latch.ys (dimWidth s.sheetCur) transp yt xt t) := by
  obtain ⟨frame, rfl⟩ := h
  refine ⟨frame.trans (renderTile_frame _ _ _ _ _ _ _), ?_⟩
  have cell : getCell xt yt t = ((color, db), t) := by
    apply getCell_of_written
    · rw [frame.writtenColor_eq, frame.cfg_eq, hc.cellIndex_eq, hcolor]
    · rw [frame.tileDb_eq, frame.cfg_eq, hc.cellIndex_eq, hdb]
  rw [coveringElement_eq, ← frame.idx_eq] at hi
  obtain ⟨hxt, hyt⟩ := hc
  have covered := (blit_get (xp := xt * 8 - s.latch.xs) (yp := yt * 8 - s.latch.ys) (transp := transp) (color := color)
    (by rwa [frame.cfg_eq]) (by rwa [frame.cfg_eq])).1 _ _ si (by omega) (by omega) (by omega) (by omega) hi
  rw [frame.cfg_eq] at covered
  simpa only [renderTile, cell] using covered

/-- RENDER's loops leave the closed form's value in the element of a pixel whose covering cell and sheet element are written: the
covering tile's visit brings it there, and every other visit leaves it alone (R141, R143, R150). -/
theorem renderTiles_get {s : State} {px py : Nat} {color : BitVec 96} {db : BitVec 2} {si : BitVec 3} (hx : px < s.cfg.fbW)
    (hy : py < s.cfg.fbH) (hcolor : writtenColor s (coveringCell s px py) = some color)
    (hdb : memGet s.tileDb (coveringCell s px py) = some db) (hi : memGet s.idx (coveringElement s db px py) = some si) :
    memGet (renderTiles s).fb (px + py * s.cfg.fbW) =
      blitted s.cfg s.latch.transp (sub s.cfg color si.toNat) (memGet s.fb (px + py * s.cfg.fbW)) := by
  have row (yt : Int) {o : Option (BitVec 9)} {t : State} (hyt : yt ≠ (s.latch.ys + py) / 8)
      (h : FbHolds s (px + py * s.cfg.fbW) o t) : FbHolds s (px + py * s.cfg.fbW) o
        (forIncl (asr3 s.latch.xs) (asr3 (s.latch.xs + s.cfg.fbW))
          (fun xt => renderTile s.latch.xs s.latch.ys (dimWidth s.sheetCur) s.latch.transp yt xt) t) :=
    forIncl_keeps h fun _ _ _ _ ht => ht.renderTile_other hx hy fun hc => hyt hc.2
  have main : FbHolds s (px + py * s.cfg.fbW)
      (blitted s.cfg s.latch.transp (sub s.cfg color si.toNat) (memGet s.fb (px + py * s.cfg.fbW))) (renderTiles s) := by
    refine forIncl_passes (A := FbHolds s _ (memGet s.fb (px + py * s.cfg.fbW))) (v₀ := (s.latch.ys + py) / 8)
      (by unfold asr3; omega) (by unfold asr3; omega) ⟨SameButFb.refl s, rfl⟩ (fun yt _ => row yt) (fun yt _ => row yt)
      fun t ht => ?_
    refine forIncl_passes (A := FbHolds s _ (memGet s.fb (px + py * s.cfg.fbW))) (v₀ := (s.latch.xs + px) / 8)
      (by unfold asr3; omega) (by unfold asr3; omega) ht (fun xt u hxt hu => ?_) (fun xt u hxt hu => ?_) fun u hu => ?_
    · exact hu.renderTile_other hx hy fun hc => hxt hc.1
    · exact hu.renderTile_other hx hy fun hc => hxt hc.1
    · exact hu.renderTile_covering hx hy ⟨rfl, rfl⟩ hcolor hdb hi
  exact main.2

/-- Settles O43: the loops' frame, and what they leave in each pixel's element. -/
theorem renderClosedForm : Obligations.RenderClosedForm := by
  intro s hv hw hh
  refine ⟨_, exec_render_of_valid hv hw hh, ?_, fun px py color db si hx hy hcolor hdb hi => ?_⟩
  · have frame := renderTiles_frame s
    unfold SameButFb at frame
    rw [frame]
    rfl
  · rw [complete_fb, renderTiles_get hx hy hcolor hdb hi]
    simp [blitted, skipsWrite, Config.sent]

end Sys2Proof.Machine

/-! PROOFS of the family 43_tilemap_rasterizer.md: RENDER's errors, the tiles it visits, and what it leaves in FB. -/

namespace Sys2Proof.Machine

/-! ### RENDER's errors (43_tilemap_rasterizer.md R140) -/

theorem exec_render_of_no_sheet {s : State} (hv : s.status.sheetValid = false) :
    exec .render s = .next (raiseError .noSheet 0 s) := if_pos hv

theorem exec_render_of_small_sheet {s : State} (hv : s.status.sheetValid = true)
    (hd : lowHalf s.sheetCur < 8 ∨ highHalf s.sheetCur < 8) :
    exec .render s = .next (raiseError .sheetSmall s.sheetCur s) := by
  rw [← dimWidth_eq_lowHalf, ← dimHeight_eq_highHalf] at hd
  rw [exec, execRender, if_neg (by simp [hv]), if_pos hd]

/-- Settles O44: the valid flag is checked before the dimensions, and each error is `raiseError` alone. -/
theorem renderErrorsInOrder : Obligations.RenderErrorsInOrder := fun _ =>
  ⟨exec_render_of_no_sheet, exec_render_of_small_sheet⟩

/-! ### No write outside the buffer (43_tilemap_rasterizer.md R154) -/

/-- The visit of a tile leaves every element beyond the buffer's alone (R149, R154). -/
theorem FbHolds.renderTile_outside {s t : State} {p : Nat} {o : Option (BitVec 9)} (h : FbHolds s p o t) (hp : s.cfg.fbSize ≤ p)
    (sw : Nat) (transp : Bool) (yt xt : Int) :
    FbHolds s p o (renderTile s.latch.xs s.latch.ys sw transp yt xt t) := by
  obtain ⟨frame, holds⟩ := h.after_getCell xt yt
  exact ⟨h.1.trans (renderTile_frame _ _ _ _ _ _ _), (blit_get_outside (by rwa [frame.cfg_eq])).trans holds⟩

theorem renderTiles_get_outside {s : State} {p : Nat} (hp : s.cfg.fbSize ≤ p) :
    memGet (renderTiles s).fb p = memGet s.fb p := by
  have main : FbHolds s p (memGet s.fb p) (renderTiles s) :=
    forIncl_keeps (P := FbHolds s p (memGet s.fb p)) ⟨SameButFb.refl s, rfl⟩ fun yt _ _ _ ht =>
      forIncl_keeps (P := FbHolds s p (memGet s.fb p)) ht fun xt _ _ _ hu => hu.renderTile_outside hp _ _ yt xt
  exact main.2

/-- A tile whose block lies wholly outside the buffer has every pixel clipped (R145, R154). -/
theorem blit_of_outside {s : State} {xp yp : Int}
    (h : xp + 8 ≤ 0 ∨ (s.cfg.fbW : Int) ≤ xp ∨ yp + 8 ≤ 0 ∨ (s.cfg.fbH : Int) ≤ yp)
    (color : BitVec 96) (db : BitVec 2) (sw : Nat) (transp : Bool) : blit xp yp color db sw transp s = s := by
  refine forUpTo_keeps (P := (· = s)) rfl fun y t hy ht => forUpTo_keeps (P := (· = s)) ht fun x u hx hu => ?_
  subst hu
  have out : clipped u.cfg (x + xp) (y + yp) = true := by
    rw [← Bool.not_eq_false, clipped_false_iff]
    omega
  exact if_pos out

/-- Settles O46: no tile's visit reaches beyond the buffer, and a tile outside it is clipped pixel by pixel. -/
theorem renderStaysInsideTheBuffer : Obligations.RenderStaysInsideTheBuffer := by
  refine ⟨fun s t h p hp => ?_, fun s xp yp color db sw transp h => blit_of_outside h color db sw transp,
    fun s yp color db sw transp hw => ?_⟩
  · cases exec_next_cases h with
    | error _ _ e w s' _ same => rw [raiseError_fb, same.fb_eq]
    | render => rw [complete_fb, renderTiles_get_outside hp]
  · refine blit_of_outside (.inr (.inl ?_)) color db sw transp
    unfold asr3
    omega

/-! ### The tiles RENDER visits (43_tilemap_rasterizer.md R141, R143, R156) -/

theorem forUpTo_eq_foldl {σ : Type} (n : Nat) (f : Nat → σ → σ) (s : σ) :
    forUpTo n f s = (List.range n).foldl (fun t k => f k t) s := by
  induction n with
  | zero => rfl
  | succ n ih => rw [List.range_succ, List.foldl_append, ← ih]; rfl

/-- An inclusive loop is a fold over the integers it runs through (00_scope.md R13). -/
theorem forIncl_eq_foldl {σ : Type} (a b : Int) (f : Int → σ → σ) (s : σ) :
    forIncl a b f s = (Int.range a (b + 1)).foldl (fun t v => f v t) s := by
  rw [forIncl, forUpTo_eq_foldl, Int.range, List.foldl_map, show b + 1 - a = b - a + 1 by ring]

theorem length_int_range (a b : Int) : (Int.range a b).length = (b - a).toNat := by
  simp [Int.range]

theorem pairwise_lt_int_range (a b : Int) : (Int.range a b).Pairwise (· < ·) := by
  rw [Int.range, List.pairwise_map]
  exact List.pairwise_lt_range.imp fun h => by omega

/-- Pairs of two rising lists rise, the first list's element before the second's. -/
theorem pairwise_product {l m : List Int} (hl : l.Pairwise (· < ·)) (hm : m.Pairwise (· < ·)) :
    (l ×ˢ m).Pairwise (fun p q => p.1 < q.1 ∨ p.1 = q.1 ∧ p.2 < q.2) := by
  refine List.pairwise_flatMap.2 ⟨fun a _ => List.pairwise_map.2 (hm.imp fun h => .inr ⟨rfl, h⟩), hl.imp fun h p hp q hq => .inl ?_⟩
  obtain ⟨-, -, rfl⟩ := List.mem_map.1 hp
  obtain ⟨-, -, rfl⟩ := List.mem_map.1 hq
  exact h

/-- The tiles of R141's range as pairs (row, column), rows outer (R143). -/
def visibleTiles (s : State) : List (Int × Int) :=
  Int.range (s.latch.ys / 8) ((s.latch.ys + s.cfg.fbH) / 8 + 1) ×ˢ Int.range (s.latch.xs / 8) ((s.latch.xs + s.cfg.fbW) / 8 + 1)

theorem mem_visibleTiles {s : State} {yt xt : Int} : (yt, xt) ∈ visibleTiles s ↔
    s.latch.ys / 8 ≤ yt ∧ yt ≤ (s.latch.ys + s.cfg.fbH) / 8 ∧ s.latch.xs / 8 ≤ xt ∧ xt ≤ (s.latch.xs + s.cfg.fbW) / 8 := by
  simp only [visibleTiles, List.mem_product, Int.mem_range_iff, Int.lt_add_one_iff, and_assoc]

theorem length_visibleTiles (s : State) : ((visibleTiles s).length : Int) =
    ((s.latch.ys + s.cfg.fbH) / 8 - s.latch.ys / 8 + 1) * ((s.latch.xs + s.cfg.fbW) / 8 - s.latch.xs / 8 + 1) := by
  have count (a : Int) (w : Nat) : (((Int.range (a / 8) ((a + w) / 8 + 1)).length : Nat) : Int) = (a + w) / 8 - a / 8 + 1 := by
    rw [length_int_range]
    omega
  rw [visibleTiles, List.length_product, Nat.cast_mul, count, count]

/-- RENDER's loops are the per-tile operation folded over the visible tiles (R140, R143). -/
theorem renderTiles_eq_foldl (s : State) : renderTiles s =
    (visibleTiles s).foldl (fun t p => renderTile s.latch.xs s.latch.ys (lowHalf s.sheetCur) s.latch.transp p.1 p.2 t) s := by
  refine Eq.trans ?_ List.foldl_flatMap.symm
  simp only [renderTiles, forIncl_eq_foldl, dimWidth_eq_lowHalf, asr3, List.foldl_map]

/-- Settles O42: the loops as a fold over R141's range, and the count of columns at an aligned scroll. -/
theorem renderVisitsTheTileRange : Obligations.RenderVisitsTheTileRange := by
  refine ⟨fun s hv hw hh => ⟨visibleTiles s, renderTiles s, renderTiles_eq_foldl s, exec_render_of_valid hv hw hh,
    fun _ _ => mem_visibleTiles, pairwise_product (pairwise_lt_int_range _ _) (pairwise_lt_int_range _ _),
    length_visibleTiles s⟩, fun xs w aligned => ⟨by omega, by omega, by omega⟩, ?_⟩
  decide

/-! ### RENDER's writes lie over what FB held (43_tilemap_rasterizer.md R148, R151) -/

/-- `s` with other contents of FB. -/
def withFb (f : Memory 9) (s : State) : State := { s with fb := f }

/-- Whatever FB holds, `F` comes from `s` to one state but for FB, in which one layer of writes lies over what FB held. -/
def OverlaysFb (F : State → State) : Prop :=
  ∀ s, ∃ (r : State) (layer : Nat → Option (BitVec 9)), ∀ f, ∃ f',
    F (withFb f s) = withFb f' r ∧ ∀ p, memGet f' p = (layer p).or (memGet f p)

theorem OverlaysFb.comp {F G : State → State} (hG : OverlaysFb G) (hF : OverlaysFb F) : OverlaysFb (G ∘ F) := by
  intro s
  obtain ⟨r, lower, overF⟩ := hF s
  obtain ⟨r', upper, overG⟩ := hG r
  refine ⟨r', fun p => (upper p).or (lower p), fun f => ?_⟩
  obtain ⟨f₁, e₁, get₁⟩ := overF f
  obtain ⟨f₂, e₂, get₂⟩ := overG f₁
  exact ⟨f₂, (congrArg G e₁).trans e₂, fun p => by rw [get₂, get₁, Option.or_assoc]⟩

theorem OverlaysFb.forUpTo {n : Nat} {F : Nat → State → State} (h : ∀ k, OverlaysFb (F k)) : OverlaysFb (forUpTo n F) := by
  induction n with
  | zero => exact fun s => ⟨s, fun _ => none, fun f => ⟨f, rfl, fun _ => rfl⟩⟩
  | succ n ih => exact (h n).comp ih

theorem OverlaysFb.forIncl {a b : Int} {F : Int → State → State} (h : ∀ v, OverlaysFb (F v)) : OverlaysFb (forIncl a b F) :=
  OverlaysFb.forUpTo fun _ => h _

@[simp] theorem withFb_cfg (f : Memory 9) (s : State) : (withFb f s).cfg = s.cfg := rfl
@[simp] theorem withFb_tileColor (f : Memory 9) (s : State) : (withFb f s).tileColor = s.tileColor := rfl
@[simp] theorem withFb_tileDb (f : Memory 9) (s : State) : (withFb f s).tileDb = s.tileDb := rfl
@[simp] theorem withFb_fb (f : Memory 9) (s : State) : (withFb f s).fb = f := rfl

@[simp] theorem readElem_withFb {w : Nat} (m : Memory w) (i : Nat) (f : Memory 9) (s : State) :
    readElem m i (withFb f s) = ((readElem m i s).1, withFb f (readElem m i s).2) := by
  unfold readElem
  split <;> rfl

theorem readIdx_withFb (i : Nat) (f : Memory 9) (s : State) :
    readIdx i (withFb f s) = ((readIdx i s).1, withFb f (readIdx i s).2) := readElem_withFb s.idx i f s

@[simp] theorem readTilePart_withFb (c k : Nat) (f : Memory 9) (s : State) :
    readTilePart c k (withFb f s) = ((readTilePart c k s).1, withFb f (readTilePart c k s).2) := by
  simp only [readTilePart, withFb_cfg, withFb_tileColor, readElem_withFb]
  split_ifs <;> rfl

/-- A cell's lookup reads the same, draws included, whatever FB holds. -/
theorem getCell_withFb (tx ty : Int) (f : Memory 9) (s : State) :
    getCell tx ty (withFb f s) = ((getCell tx ty s).1, withFb f (getCell tx ty s).2) := by
  simp [getCell, readColor, readTileDb]

/-- One write lies over what the memory held. -/
theorem memGet_memSet_or {w : Nat} (m : Memory w) (i : Nat) (v : BitVec w) (p : Nat) :
    memGet (memSet m i v) p = (if p = i then some v else none).or (memGet m p) := by
  rw [memGet_memSet]
  split_ifs <;> rfl

/-- One local pixel writes its element or none; which of the two, and what, does not depend on FB (R144-R149). -/
theorem blitPixel_overlaysFb (xp yp : Int) (color : BitVec 96) (db : BitVec 2) (sw : Nat) (transp : Bool) (y x : Nat) :
    OverlaysFb (blitPixel xp yp color db sw transp y x) := by
  intro s
  rcases hr : readIdx (sheetElement db sw x y) s with ⟨si, r⟩
  have read (f : Memory 9) : readIdx (sheetElement db sw x y) (withFb f s) = (si, withFb f r) := by rw [readIdx_withFb, hr]
  by_cases clip : clipped s.cfg (x + xp) (y + yp) = true
  · exact ⟨s, fun _ => none, fun f => ⟨f, if_pos clip, fun _ => rfl⟩⟩
  by_cases skip : skipsWrite s.cfg transp (sub s.cfg color si.toNat) = true
  · refine ⟨r, fun _ => none, fun f => ⟨f, ?_, fun _ => rfl⟩⟩
    simp only [blitPixel, withFb_cfg, read, if_neg clip, if_pos skip]
  · have writes (f : Memory 9) : blitPixel xp yp color db sw transp y x (withFb f s) =
        withFb (memSet f (((x : Int) + xp).toNat + ((y : Int) + yp).toNat * s.cfg.fbW)
          (r.cfg.truncField (sub s.cfg color si.toNat))) r := by
      simp only [blitPixel, withFb_cfg, read, if_neg clip, if_neg skip]
      rfl
    exact ⟨r, _, fun f => ⟨_, writes f, memGet_memSet_or f _ _⟩⟩

/-- A visit looks its cell up and blits it, neither of which depends on FB. -/
theorem renderTile_overlaysFb (xs ys : Int) (sw : Nat) (transp : Bool) (yt xt : Int) :
    OverlaysFb (renderTile xs ys sw transp yt xt) := by
  intro s
  have tile : OverlaysFb (blit (xt * 8 - xs) (yt * 8 - ys) (getCell xt yt s).1.1 (getCell xt yt s).1.2 sw transp) :=
    OverlaysFb.forUpTo fun y => OverlaysFb.forUpTo fun x => blitPixel_overlaysFb _ _ _ _ _ _ y x
  obtain ⟨r, layer, lay⟩ := tile (getCell xt yt s).2
  refine ⟨r, layer, fun f => ?_⟩
  simpa only [renderTile, getCell_withFb] using lay f

theorem renderTiles_overlaysFb : OverlaysFb renderTiles := by
  intro s
  have loops : OverlaysFb (forIncl (asr3 s.latch.ys) (asr3 (s.latch.ys + s.cfg.fbH)) fun yt =>
      forIncl (asr3 s.latch.xs) (asr3 (s.latch.xs + s.cfg.fbW)) fun xt =>
        renderTile s.latch.xs s.latch.ys (dimWidth s.sheetCur) s.latch.transp yt xt) :=
    OverlaysFb.forIncl fun yt => OverlaysFb.forIncl fun xt => renderTile_overlaysFb _ _ _ _ yt xt
  exact loops s

/-- What has been written stays written. -/
theorem OverlaysFb.keeps_written {F : State → State} (h : OverlaysFb F) {s : State} {p : Nat} (hp : memGet s.fb p ≠ none) :
    memGet (F s).fb p ≠ none := by
  obtain ⟨r, layer, lay⟩ := h s
  obtain ⟨f', e, get⟩ := lay s.fb
  have fb_eq : (F s).fb = f' := congrArg State.fb e
  rw [fb_eq, get, ne_eq, Option.or_eq_none_iff]
  exact fun unwritten => hp unwritten.2

/-! ### Without transparency RENDER writes every pixel (43_tilemap_rasterizer.md R148, R151) -/

/-- `t` is a state of a RENDER started in `s` in which FB element `p` has been written. -/
def FbMarked (s : State) (p : Nat) (t : State) : Prop := SameButFb s t ∧ memGet t.fb p ≠ none

/-- A loop every turn of which keeps `A` and keeps `B`, and whose turn `k₀` leads from `A` to `B`, ends in `B`. -/
theorem forUpTo_passes {σ : Type} {A B : σ → Prop} {n k₀ : Nat} {f : Nat → σ → σ} {s : σ} (hk : k₀ < n) (h0 : A s)
    (keepsA : ∀ k t, A t → A (f k t)) (keepsB : ∀ k t, B t → B (f k t)) (turn : ∀ t, A t → B (f k₀ t)) :
    B (forUpTo n f s) := by
  have main := forUpTo_rule (P := fun k t => A t ∧ (k₀ < k → B t)) (f := f) (s := s) (n := n)
    ⟨h0, fun h => absurd h (Nat.not_lt_zero _)⟩ fun k t _ ⟨before, after⟩ => ⟨keepsA k t before, fun h => by
      obtain h | rfl := Nat.lt_succ_iff_lt_or_eq.1 h
      · exact keepsB k t (after h)
      · exact turn t before⟩
  exact main.2 hk

/-- An opaque turn at a pixel of the buffer writes its element, be the sheet element written or a draw (R145-R149). -/
theorem blitPixel_opaque_marks {xp yp : Int} {color : BitVec 96} {db : BitVec 2} {sw y x px py : Nat} {s : State}
    (hx : px < s.cfg.fbW) (hy : py < s.cfg.fbH) (ex : (x : Int) + xp = px) (ey : (y : Int) + yp = py) :
    memGet (blitPixel xp yp color db sw false y x s).fb (px + py * s.cfg.fbW) ≠ none := by
  have inside : ¬ clipped s.cfg px py = true := by
    rw [Bool.not_eq_true, clipped_false_iff]
    omega
  simp only [blitPixel, ex, ey, if_neg inside, skipsWrite, Bool.false_and, Bool.false_eq_true, if_false, writeFb_fb, Int.toNat_natCast,
    memGet_memSet_same]
  exact Option.some_ne_none _

/-- An opaque blit writes the element of a pixel its tile covers. -/
theorem blit_opaque_marks {xp yp : Int} {color : BitVec 96} {db : BitVec 2} {sw x y px py : Nat} {s t : State} (h : SameButFb s t)
    (hx : px < s.cfg.fbW) (hy : py < s.cfg.fbH) (hx8 : x < 8) (hy8 : y < 8) (ex : (x : Int) + xp = px) (ey : (y : Int) + yp = py) :
    memGet (blit xp yp color db sw false t).fb (px + py * s.cfg.fbW) ≠ none := by
  have turn (y x : Nat) {u : State} (hu : FbMarked s (px + py * s.cfg.fbW) u) :
      FbMarked s (px + py * s.cfg.fbW) (blitPixel xp yp color db sw false y x u) :=
    ⟨hu.1.trans (blitPixel_frame _ _ _ _ _ _ _ _ _), (blitPixel_overlaysFb _ _ _ _ _ _ _ _).keeps_written hu.2⟩
  have main : FbMarked s (px + py * s.cfg.fbW) (blit xp yp color db sw false t) := by
    refine forUpTo_passes (A := SameButFb s) hy8 h (fun j u hu => ?_) (fun j u hu => ?_) fun u hu => ?_
    · exact forUpTo_keeps hu fun _ _ _ hv => hv.trans (blitPixel_frame _ _ _ _ _ _ _ _ _)
    · exact forUpTo_keeps hu fun _ _ _ => turn j _
    · refine forUpTo_passes (A := SameButFb s) hx8 hu (fun i v hv => ?_) (fun i v => turn y i) fun v hv => ?_
      · exact hv.trans (blitPixel_frame _ _ _ _ _ _ _ _ _)
      · have marks := blitPixel_opaque_marks (color := color) (db := db) (sw := sw) (by rwa [hv.cfg_eq]) (by rwa [hv.cfg_eq]) ex ey
        rw [hv.cfg_eq] at marks
        exact ⟨hv.trans (blitPixel_frame _ _ _ _ _ _ _ _ _), marks⟩
  exact main.2

/-- Every visit keeps the element written. -/
theorem FbMarked.renderTile {s t : State} {p : Nat} (h : FbMarked s p t) (xs ys : Int) (sw : Nat) (transp : Bool) (yt xt : Int) :
    FbMarked s p (renderTile xs ys sw transp yt xt t) :=
  ⟨h.1.trans (renderTile_frame _ _ _ _ _ _ _), (renderTile_overlaysFb _ _ _ _ _ _).keeps_written h.2⟩

/-- The opaque visit of the covering tile writes the pixel's element (R142, R150). -/
theorem renderTile_opaque_marks {s t : State} {px py sw : Nat} {xt yt : Int} (h : SameButFb s t) (hx : px < s.cfg.fbW)
    (hy : py < s.cfg.fbH) (hc : Covers s xt yt px py) :
    FbMarked s (px + py * s.cfg.fbW) (renderTile s.latch.xs s.latch.ys sw false yt xt t) := by
  obtain ⟨hxt, hyt⟩ := hc
  exact ⟨h.trans (renderTile_frame _ _ _ _ _ _ _),
    blit_opaque_marks (x := ((s.latch.xs + px) % 8).toNat) (y := ((s.latch.ys + py) % 8).toNat)
      (h.trans (getCell_frame xt yt t).sameButFb) hx hy (by omega) (by omega) (by omega) (by omega)⟩

/-- Opaque loops write every pixel's element: its covering tile is visited, and no visit takes a mark back (R141, R151). -/
theorem renderTiles_opaque_marks {s : State} {px py : Nat} (opaq : s.latch.transp = false) (hx : px < s.cfg.fbW)
    (hy : py < s.cfg.fbH) : memGet (renderTiles s).fb (px + py * s.cfg.fbW) ≠ none := by
  have main : FbMarked s (px + py * s.cfg.fbW) (renderTiles s) := by
    unfold renderTiles
    refine forIncl_passes (A := SameButFb s) (v₀ := (s.latch.ys + py) / 8) (by unfold asr3; omega) (by unfold asr3; omega)
      (SameButFb.refl s) (fun yt t _ ht => ?_) (fun yt t _ ht => ?_) fun t ht => ?_
    · exact forIncl_keeps ht fun _ _ _ _ hu => hu.trans (renderTile_frame _ _ _ _ _ _ _)
    · exact forIncl_keeps ht fun _ _ _ _ hu => hu.renderTile _ _ _ _ _ _
    · refine forIncl_passes (A := SameButFb s) (v₀ := (s.latch.xs + px) / 8) (by unfold asr3; omega) (by unfold asr3; omega) ht
        (fun xt u _ hu => hu.trans (renderTile_frame _ _ _ _ _ _ _)) (fun xt u _ hu => hu.renderTile _ _ _ _ _ _) fun u hu => ?_
      rw [opaq]
      exact renderTile_opaque_marks hu hx hy ⟨rfl, rfl⟩
  exact main.2

/-- Every element of the buffer is a pixel's (R149). -/
theorem exists_pixel {c : Config} {p : Nat} (hp : p < c.fbSize) : ∃ px py, px < c.fbW ∧ py < c.fbH ∧ p = px + py * c.fbW := by
  have hw : 0 < c.fbW := Nat.pos_of_mul_pos_right (Nat.zero_lt_of_lt hp)
  exact ⟨p % c.fbW, p / c.fbW, Nat.mod_lt _ hw, Nat.div_lt_of_lt_mul hp, (Nat.mod_add_div' p c.fbW).symm⟩

/-- Settles O45: one layer lies over either FB, and it has every pixel, since also over an empty FB every pixel is written. -/
theorem renderOverwritesInFull : Obligations.RenderOverwritesInFull := by
  intro s fb' hv hw hh opaq
  obtain ⟨r, layer, lay⟩ := renderTiles_overlaysFb s
  have get (f : Memory 9) (p : Nat) : memGet (renderTiles (withFb f s)).fb p = (layer p).or (memGet f p) := by
    obtain ⟨f', e, get⟩ := lay f
    rw [e, withFb_fb, get]
  refine ⟨_, _, exec_render_of_valid hv hw hh, exec_render_of_valid (s := withFb fb' s) hv hw hh, fun p hp => ?_⟩
  have full : layer p ≠ none := by
    obtain ⟨px, py, hx, hy, rfl⟩ := exists_pixel hp
    have marks := renderTiles_opaque_marks (s := withFb [] s) opaq hx hy
    rw [withFb_cfg, get, memGet_nil, Option.or_none] at marks
    exact marks
  obtain ⟨v, hlayer⟩ := Option.ne_none_iff_exists'.1 full
  have value (f : Memory 9) : memGet (complete (renderTiles (withFb f s))).fb p = some v := by
    rw [complete_fb, get, hlayer, Option.some_or]
  exact ⟨(value s.fb).trans_ne (Option.some_ne_none v), (value s.fb).trans (value fb').symm⟩

/-! ### A second RENDER (43_tilemap_rasterizer.md R152) -/

/-- What a visit leaves, a visit with the same sub-colour leaves as it is (R148). -/
theorem blitted_blitted (c : Config) (transp : Bool) (v : BitVec 9) (old : Option (BitVec 9)) :
    blitted c transp v (blitted c transp v old) = blitted c transp v old := by
  unfold blitted
  split_ifs <;> rfl

/-- The closed form for a RENDER started where one of `s` left: the inputs are those of `s`, over the later FB (R150). -/
theorem SameButFb.renderTiles_complete_get {s t : State} (h : SameButFb s t) {px py : Nat} {color : BitVec 96} {db : BitVec 2}
    {si : BitVec 3} (hx : px < s.cfg.fbW) (hy : py < s.cfg.fbH) (hcolor : writtenColor s (coveringCell s px py) = some color)
    (hdb : memGet s.tileDb (coveringCell s px py) = some db) (hi : memGet s.idx (coveringElement s db px py) = some si) :
    memGet (renderTiles (complete t)).fb (px + py * s.cfg.fbW) =
      blitted s.cfg s.latch.transp (sub s.cfg color si.toNat) (memGet t.fb (px + py * s.cfg.fbW)) := by
  rw [h]
  exact renderTiles_get (s := complete { s with fb := t.fb, draws := t.draws }) hx hy hcolor hdb hi

/-- A covering element lies in the sheet's 8×8 pattern (R146, R150). -/
theorem coveringElement_written {s : State}
    (pattern : ∀ sx sy, sx < 8 → sy < 8 → memGet s.idx (sx + sy * lowHalf s.sheetCur) ≠ none) (db : BitVec 2) (px py : Nat) :
    ∃ si, memGet s.idx (coveringElement s db px py) = some si := by
  rw [coveringElement_eq, dimWidth_eq_lowHalf]
  exact sheetElement_written pattern db (by omega) (by omega)

/-- Settles O48: both RENDERs leave the closed form's value, the second over the first one's. -/
theorem renderIsIdempotent : Obligations.RenderIsIdempotent := by
  intro s t u first second hv hw hh cells pattern p hp
  have frame := renderTiles_frame s
  obtain rfl : t = complete (renderTiles s) := Host.Outcome.next.inj (first.symm.trans (exec_render_of_valid hv hw hh))
  obtain ⟨hv', hw', hh'⟩ : (complete (renderTiles s)).status.sheetValid = true ∧ 8 ≤ lowHalf (complete (renderTiles s)).sheetCur ∧
      8 ≤ highHalf (complete (renderTiles s)).sheetCur := by
    rw [frame]
    exact ⟨hv, hw, hh⟩
  obtain rfl := Host.Outcome.next.inj (second.symm.trans (exec_render_of_valid hv' hw' hh'))
  obtain ⟨px, py, hx, hy, rfl⟩ := exists_pixel hp
  obtain ⟨color_written, db_written⟩ := cells px py hx hy
  obtain ⟨color, hcolor⟩ := Option.ne_none_iff_exists'.1 color_written
  obtain ⟨db, hdb⟩ := Option.ne_none_iff_exists'.1 db_written
  obtain ⟨si, hi⟩ := coveringElement_written pattern db px py
  rw [complete_fb, complete_fb, frame.renderTiles_complete_get hx hy hcolor hdb hi, renderTiles_get hx hy hcolor hdb hi, blitted_blitted]

end Sys2Proof.Machine

/-! PROOFS of the family 60_exceptions.md: nothing stops the block, a failed command changes nothing, and the interrupt line. -/

namespace Sys2Proof.Machine

/-- Settles O8: a legal elaboration is not refused, and each of R9's steps answers a next state (60_exceptions.md R170, R182). -/
theorem legalStepIsSafe : Obligations.LegalStepIsSafe := by
  intro s hl
  obtain ⟨t, ht, -⟩ := nextStep_cases s
  exact ⟨t, (step_of_legal hl).trans ht⟩

/-! ### Errors (60_exceptions.md R171, R174) -/

/-- A command ends by raising an error with only draws made before it, or leaves ERR as it found it (60_exceptions.md R171, R173). -/
theorem ExecCase.raiseError_or_err_eq {i : Instr} {s t : State} (h : ExecCase i s t) :
    (∃ e w s', SameButDraws s s' ∧ t = raiseError e w s') ∨ t.status.err = s.status.err := by
  cases h with
  | error _ _ e w s' _ hs => exact .inl ⟨e, w, s', hs, rfl⟩
  | decode => exact .inr (by rw [decodeAll_frame]; rfl)
  | buildPal l => exact .inr (by rw [buildEntries_frame]; rfl)
  | render => exact .inr (by rw [renderTiles_frame s]; rfl)
  | expand => exact .inr (by rw [expandPixels_frame, readFbRun_frame _ s]; rfl)
  | lookup j => exact .inr (by rw [lookupEntry_frame]; rfl)

/-- What raising an error changes, counted from a state before some draws (60_exceptions.md R171). -/
theorem SameButDraws.raiseError_frame {s s' : State} (h : SameButDraws s s') (e : ErrCode) (w : Word) :
    raiseError e w s' = { s with
      eng := .idle, errInfo := w, draws := s'.draws,
      status := { s.status with err := true, errcode := errCodeBits e, done := true } } := by
  rw [h]
  rfl

/-- Settles O50: ERR goes from 0 to 1 only where the command raises an error, before which it has made draws alone. -/
theorem commandsAreAllOrNothing : Obligations.CommandsAreAllOrNothing := by
  intro i s t clear hx raised
  obtain ⟨e, w, s', hs, rfl⟩ | kept := (exec_next_cases hx).raiseError_or_err_eq
  · exact hs.raiseError_frame e w
  · rw [kept, clear] at raised
    cases raised

/-! ### The interrupt line (60_exceptions.md R177, R178) -/

theorem irq_true_iff (s : State) : irq s = true ↔ s.status.done = true ∧ s.ctrl.irqEn = true := Bool.and_eq_true_iff

/-- After a STATUS write the line stays high only where bit 1 left DONE alone (10_state.md R30). -/
theorem irq_transact_writeAt_status (v : Word) (s : State) :
    irq (transact (writeAt 0x014 v) s) = (s.status.done && !v.getLsbD 1 && s.ctrl.irqEn) :=
  congrArg irq (transact_writeAt_reg .status v s)

/-- After a CTRL write bit 1 is IRQ_EN (10_state.md R28). -/
theorem irq_transact_writeAt_ctrl (v : Word) (s : State) :
    irq (transact (writeAt 0x010 v) s) = (s.status.done && v.getLsbD 1) :=
  congrArg irq (transact_writeAt_reg .ctrl v s)

/-- Acceptance clears DONE (10_state.md R50). -/
theorem irq_transact_writeAt_cmd (w : Word) (s : State) : irq (transact (writeAt 0x018 w) s) = false :=
  congrArg irq (transact_writeAt_reg .cmd w s)

/-- Settles O25, by the line after a write of each of the three registers. -/
theorem interruptLineFollowsDone : Obligations.InterruptLineFollowsDone := by
  refine fun s => ⟨irq_true_iff s, fun v hv => ?_, fun v hv => ?_, fun w => irq_transact_writeAt_cmd w s, fun v hv hd => ?_⟩
  · rw [irq_transact_writeAt_status, hv, Bool.not_true, Bool.and_false, Bool.false_and]
  · rw [irq_transact_writeAt_ctrl, hv, Bool.and_false]
  · rw [irq_transact_writeAt_ctrl, hv, hd, Bool.and_true]

end Sys2Proof.Machine

/-! PROOFS of the family 70_reset_and_hazards.md: the stall rule, by what it holds, when it lifts and what it lets through. -/

namespace Sys2Proof.Machine

/-! ### What the stall rule holds (70_reset_and_hazards.md R192) -/

/-- R192's condition on what an access addresses: a CMD write, or any access to a window element. -/
theorem stalls_iff_of_addressed {c : Config} {a : BusAccess} {g : Target} (ha : a.addressed c = some g) :
    a.stalls c = true ↔ g = .reg .cmd ∧ a.we = true ∨ ∀ r, g ≠ .reg r := by
  unfold BusAccess.stalls
  rw [ha]
  cases g with
  | reg r => simp [and_comm]
  | _ => simp

/-- An access that gets a bus error is not held (notes/assumptions/5.md). -/
theorem not_stalls_of_not_addressed {c : Config} {a : BusAccess} (ha : a.addressed c = none) : a.stalls c = false := by
  rw [BusAccess.stalls, ha]

theorem mustWait_of_busy (a : BusAccess) {s : State} (he : s.eng = .busy) : mustWait a s = a.stalls s.cfg := by
  simp [mustWait, he]

/-- A BUSY block holds a stalled access, and nothing else changes. -/
theorem step_eq_hold {s : State} {a : BusAccess} {rest : List Event} (hl : s.cfg.legal = true) (he : s.eng = .busy)
    (hh : s.held = none) (hi : s.inputs = .access a :: rest) (hs : a.stalls s.cfg = true) :
    step s = .next { s with inputs := rest, held := some a } := by
  have wait : mustWait a { s with inputs := rest } = true := (mustWait_of_busy a (s := { s with inputs := rest }) he).trans hs
  rw [step_eq_present hl hh hi, present_of_mustWait wait]

/-- A BUSY block performs at once an access that is not stalled. -/
theorem step_eq_transact_of_not_stalls {s : State} {a : BusAccess} {rest : List Event} (hl : s.cfg.legal = true)
    (he : s.eng = .busy) (hh : s.held = none) (hi : s.inputs = .access a :: rest) (hs : a.stalls s.cfg = false) :
    step s = .next (transact a { s with inputs := rest }) := by
  have go : mustWait a { s with inputs := rest } = false := (mustWait_of_busy a (s := { s with inputs := rest }) he).trans hs
  rw [step_eq_present hl hh hi, present_of_not_mustWait go]

/-! ### The completion step lifts the hold (70_reset_and_hazards.md R192) -/

theorem engineHasTurn_of_held_of_not_resetNext {s : State} {a : BusAccess} (hh : s.held = some a) (hr : resetNext s = false) :
    engineHasTurn s = true := by
  unfold resetNext at hr
  unfold engineHasTurn
  split at hr
  · cases hr
  · simp [hh]

theorem ExecCase.held_eq {i : Instr} {s t : State} (h : ExecCase i s t) : t.held = s.held := by rw [h.sameButResults]

/-- The completion step ends IDLE, and a held access stays held over it. -/
theorem completionStep_keeps_held (s : State) :
    ∃ t, completionStep s = .next t ∧ t.eng = .idle ∧ t.held = s.held ∧ t.cfg = s.cfg := by
  cases hd : decode s.latch.cmdw with
  | ok i =>
    obtain ⟨t, hx, hc⟩ := exec_cases i s
    exact ⟨t, (completionStep_of_decode hd).trans hx, hc.eng_idle, hc.held_eq, hc.cfg_eq⟩
  | error e => exact ⟨raiseError .badCmd s.latch.cmdw s, by rw [completionStep, hd], rfl, rfl, rfl⟩

/-- While an access is held the next step but a reset is the completion step (notes/assumptions/4.md). -/
theorem step_completes_of_held {s : State} {a : BusAccess} (hl : s.cfg.legal = true) (he : s.eng = .busy)
    (hh : s.held = some a) (hr : resetNext s = false) :
    ∃ u, step s = .next u ∧ u.eng = .idle ∧ u.held = some a ∧ u.cfg = s.cfg := by
  obtain ⟨u, hu, hidle, hheld, hcfg⟩ := completionStep_keeps_held { s with inputs := afterTurn s.inputs }
  have turn := step_eq_completionStep hl he (engineHasTurn_of_held_of_not_resetNext hh hr)
  exact ⟨u, turn.trans hu, hidle, hheld.trans hh, hcfg⟩

/-- A CMD write that is performed is accepted (10_state.md R31, R50). -/
theorem transact_cmd_write {s : State} {a : BusAccess} (ha : a.addressed s.cfg = some (.reg .cmd)) (hw : a.we = true) :
    transact a s = respond .writeDone (accept a.wdata s) := by
  rw [transact, ha]
  exact if_pos hw

/-- Settles O10: the hold, the completion step and the lifted access, each by its own step; what is not stalled is performed
at once. -/
theorem stallRuleHoldsAndLifts : Obligations.StallRuleHoldsAndLifts := by
  intro s a rest hl he hh hi
  refine ⟨fun g ha => ⟨fun hstall => ⟨?_, rfl, fun hr => ?_⟩, fun ⟨r, hg, hr⟩ => ?_⟩, fun ha => ?_⟩
  · exact step_eq_hold hl he hh hi ((stalls_iff_of_addressed ha).2 hstall)
  · obtain ⟨u, hu, hidle, hheld, hcfg⟩ :=
      step_completes_of_held (s := { s with inputs := rest, held := some a }) hl he rfl hr
    refine ⟨u, hu, hidle, hheld, step_eq_lift (hcfg ▸ hl) hidle hheld, fun hg => ?_⟩
    have hw : a.we = true := hstall.elim (·.2) (absurd hg <| · .cmd)
    have hcmd : a.addressed ({ u with held := none } : State).cfg = some (.reg .cmd) := by rw [hcfg, ha, hg]
    rw [transact_cmd_write hcmd hw]
    exact ⟨rfl, rfl⟩
  · have not_held : ¬a.stalls s.cfg = true := by
      rw [stalls_iff_of_addressed ha]
      rintro (⟨hcmd, hw⟩ | hwindow)
      · exact hr ⟨Target.reg.inj (hg.symm.trans hcmd), hw⟩
      · exact hwindow r hg
    exact step_eq_transact_of_not_stalls hl he hh hi (Bool.eq_false_of_not_eq_true not_held)
  · rw [step_eq_transact_of_not_stalls hl he hh hi (not_stalls_of_not_addressed ha)]
    exact congrArg Host.Outcome.next (transact_of_not_addressed fun g => by simp [ha])

end Sys2Proof.Machine
